-- ==== Sys2Proof/Word.lean ====
section
/-! DEFINITION. The words of the UART Controller Block (UCB): the 40-bit command word (R84) and the 8-bit datum (R5 `BYTE_W`). -/

namespace Sys2Proof

/-- A command word `CMD40`, bits 39..0 (R84). -/
abbrev Word40 := BitVec 40

/-- One transferred datum, `BYTE_W = 8` bits (R5, R45). -/
abbrev Byte := BitVec 8

/-- Bits `[lo + width - 1 : lo]` of a command word, the field notation of R7. -/
abbrev Word40.field (w : Word40) (lo width : Nat) : BitVec width := w.extractLsb' lo width

end Sys2Proof
end

