-- ==== Sys2Proof/Config.lean ====
section
/-! DEFINITION. What an instance fixes (the parameters of R5) and the free values (the draws of R14).
The OPEN parameters are an ordinary record that State carries and no step changes (log entry 2), so that a statement
about every state is a statement about every instance. -/

namespace Sys2Proof

/-- `DIVISOR_MODE` (R5, R138): which divisor definition CONFIG step S14 uses. -/
inductive DivisorMode where
  | fixedPoint       -- `FIXED_POINT`, R130
  | referenceRound   -- `REFERENCE_ROUND`, R138
  deriving DecidableEq, Repr

/-- `CALLBACK` (R5, R146): "a single process-wide function reference", bound before reset and constant thereafter (R175).
The default is a no-op; any other is a function of the host, named by a reference (log entry 9). -/
inductive Callback where
  | noop                        -- the default: does nothing
  | hostFunction (ref : Nat)    -- the host function that `ref` refers to
  deriving DecidableEq, Repr

/-- The OPEN parameters of R5. -/
structure Params where
  /-- `SYS_CLK_HZ`, written `F`: 1 ≤ F < 2^32. `F = 0` is no legal parameter (D37): `step` refuses it. -/
  sysClkHz : BitVec 32
  /-- `DIVISOR_MODE`. -/
  divisorMode : DivisorMode
  /-- `TX_PIN`, the identifier of the transmit line. -/
  txPin : Nat
  /-- `RX_PIN`, the identifier of the receive line. -/
  rxPin : Nat
  /-- `UART_PIN_FN`, the alternate function selected for both pins. -/
  uartPinFn : Nat
  /-- `TX_PAD`, the value CONFIG writes to `CTRLA.TXPO` (width: R35, general knowledge G5). -/
  txPad : BitVec 2
  /-- `RX_PAD`, the value CONFIG writes to `CTRLA.RXPO` (width: R35, general knowledge G5). -/
  rxPad : BitVec 2
  /-- `RUN_IN_STANDBY`, 1 bit. -/
  runInStandby : Bool
  /-- `BUS_CLOCK_ID`. -/
  busClockId : Nat
  /-- `PERIPH_CLOCK_ID`. -/
  periphClockId : Nat
  /-- `GCLK_GEN_ID`. -/
  gclkGenId : Nat
  /-- `IRQ_LINE`. -/
  irqLine : Nat
  /-- `CALLBACK`, the receive callback. -/
  callback : Callback
  /-- The engine's base address (R54, OPEN in D10); only the informative address map reads it. -/
  engineBase : Nat
  deriving DecidableEq, Repr

/-- The instance of the spec's vectors: `F = 48,000,000`, `FIXED_POINT` (95_test_vectors.md), the default callback (R5).
DESIGN CHOICE: every identifier, pad and the standby policy is a value of the model's (log entry 2). -/
def Params.default : Params where
  sysClkHz := 48000000
  divisorMode := .fixedPoint
  txPin := 0
  rxPin := 1
  uartPinFn := 0
  txPad := 0
  rxPad := 1
  runInStandby := false
  busClockId := 0
  periphClockId := 0
  gclkGenId := 0
  irqLine := 0
  callback := .noop
  engineBase := 0

/-- A free bit: the n-th draw of a bit (R14 "Draw", R42, R67, R73, R80). It has no body: nothing can be proved of its
value, so a statement proved with it holds whatever each draw gives (log entry 4). -/
opaque Config.freeBit : Nat → Bool

/-- A free byte: the n-th draw of a byte (R77, R80, and `rx_data` after an engine reset, R46) (log entry 4). -/
opaque Config.freeByte : Nat → Byte

/-- What the host function of a reference does with a byte, on the host's own state. It has no body: "What the callback does
is host behaviour outside the UCB" (R62), so a statement proved with it holds for every callback (log entry 9). -/
opaque Config.callbackEffect : Nat → Byte → Nat → Nat

end Sys2Proof
end

