-- ==== Sys2Proof/Syntax.lean ====
section
/-! DEFINITION. The commands of `UCB-CMD v1` (R85), one constructor of `Instr` per row of spec/opcode_table.json. -/

namespace Sys2Proof

/-- The port a command word is presented on (R85 last column, R90, R91). -/
inductive Port where
  | mainline
  | dispatch
  deriving DecidableEq, Repr

/-- The seven commands. Operands have the exact widths of R87, so every term is a command the format can hold. -/
inductive Instr where
  | claim                             -- `claim_pins()`, R98
  | release                           -- `release_pins()`, R99
  | config (c : Bool) (r : BitVec 32) -- `configure(claim_pins, baud_rate)`, R102
  | rdyq                              -- `ready_for_write()`, R139
  | wrnb (b : Byte)                   -- `write_nonblocking(byte)`, R140
  | wrblk (b : Byte)                  -- `write_blocking(byte)`, R141
  | rxisr                             -- the interrupt entry point, R142
  deriving DecidableEq, Repr

/-- The port a command belongs to (R85): RXISR is dispatch only, every other command is mainline. -/
def Instr.port : Instr → Port
  | .claim => .mainline
  | .release => .mainline
  | .config _ _ => .mainline
  | .rdyq => .mainline
  | .wrnb _ => .mainline
  | .wrblk _ => .mainline
  | .rxisr => .dispatch

end Sys2Proof
end

