-- ==== Sys2Proof/WellFormed.lean ====
section
/-! DEFINITION. Which command may stand on which port (R85, R88, R91). Operand ranges need no check: the types of
`Instr` hold exactly the values the format holds (R87: every `R` and every byte is legal). -/

namespace Sys2Proof

/-- `i` may be presented on port `p`: RXISR on the dispatch port only, every other command on the mainline port only. -/
def Instr.wellFormedOn (p : Port) (i : Instr) : Bool := i.port == p

/-- `i` is well-formed for the port it belongs to. -/
def Instr.wellFormed (i : Instr) : Bool := i.wellFormedOn i.port

end Sys2Proof
end

