-- ==== Sys2Proof/Decode.lean ====
section
/-! DEFINITION. The decoder of R92, total on every 40-bit word and every port, the encoder of R84, and the opcode
table's view of the decoder. -/

namespace Sys2Proof

/-- Why a word is ILLEGAL (R88, R95): the decoder rejects by name. -/
inductive IllegalWord where
  | reservedOp        -- `OP` is 0x0 or 0x8..0xF
  | nonzeroZ          -- a bit of `Z` is set
  | strayC            -- `C` is set outside CONFIG
  | strayData         -- a bit of `DATA` is set where R87 requires 0
  | rxisrOnMainline   -- RXISR presented on the mainline port
  | notDispatchWord   -- any word but 0x0000000007 on the dispatch port
  deriving DecidableEq, Repr

/-- `OP`, bits [3:0]. -/
def opField (w : Word40) : BitVec 4 := w.field 0 4

/-- `C`, bit [4]. -/
def cField (w : Word40) : Bool := w.getLsbD 4

/-- `Z`, bits [7:5]. -/
def zField (w : Word40) : BitVec 3 := w.field 5 3

/-- `DATA`, bits [39:8]. -/
def dataField (w : Word40) : BitVec 32 := w.field 8 32

/-- The one legal word of the dispatch port (R88, R91). -/
def rxisrWord : Word40 := 0x0000000007

/-- A command without operands: `C` and `DATA` must be 0 (R86, R87). -/
def decodeBare (c : Bool) (data : BitVec 32) (i : Instr) : Except IllegalWord Instr :=
  if c then .error .strayC
  else if data ≠ 0 then .error .strayData
  else .ok i

/-- A command with a byte operand in `DATA[7:0]`: `C` and `DATA[31:8]` must be 0 (R86, R87). -/
def decodeByte (c : Bool) (data : BitVec 32) (mk : Byte → Instr) : Except IllegalWord Instr :=
  if c then .error .strayC
  else if data.extractLsb' 8 24 ≠ 0 then .error .strayData
  else .ok (mk (data.extractLsb' 0 8))

/-- The mainline arm of R92: `Z` is checked first, then the `OP` cases. -/
def decodeMainline (w : Word40) : Except IllegalWord Instr :=
  if zField w ≠ 0 then .error .nonzeroZ
  else
    match (opField w).toNat with
    | 1 => decodeBare (cField w) (dataField w) .claim
    | 2 => decodeBare (cField w) (dataField w) .release
    | 3 => .ok (.config (cField w) (dataField w))
    | 4 => decodeBare (cField w) (dataField w) .rdyq
    | 5 => decodeByte (cField w) (dataField w) .wrnb
    | 6 => decodeByte (cField w) (dataField w) .wrblk
    | 7 => .error .rxisrOnMainline
    | _ => .error .reservedOp

/-- The dispatch arm of R92. -/
def decodeDispatch (w : Word40) : Except IllegalWord Instr :=
  if w = rxisrWord then .ok .rxisr else .error .notDispatchWord

/-- The decoder of R92. -/
def decode (p : Port) (w : Word40) : Except IllegalWord Instr :=
  match p with
  | .mainline => decodeMainline w
  | .dispatch => decodeDispatch w

/-- The format `CMD40` of R84 with `Z = 0`: `DATA`, `Z`, `C`, `OP` from the high end. -/
def cmd40 (data : BitVec 32) (c : Bool) (op : BitVec 4) : Word40 :=
  data ++ 0#3 ++ BitVec.ofBool c ++ op

/-- The encoder: the one word of each command (R84–R87). -/
def encode : Instr → Word40
  | .claim => cmd40 0 false 0x1
  | .release => cmd40 0 false 0x2
  | .config c r => cmd40 r c 0x3
  | .rdyq => cmd40 0 false 0x4
  | .wrnb b => cmd40 (b.setWidth 32) false 0x5
  | .wrblk b => cmd40 (b.setWidth 32) false 0x6
  | .rxisr => cmd40 0 false 0x7

/-- The command word whose table bits are `w`, of which the table gives `nbits`; the bits above are 0. There is one
format of 40 bits (R94), so a longer word is no command word. -/
def tableWord (nbits w : Nat) : Option Word40 :=
  if nbits ≤ 40 then some (BitVec.ofNat 40 (w % 2 ^ nbits)) else none

/-- The command the decoder reads from a word of the opcode table: the table's rows stand on two ports, so the mainline
decoder is asked first and then the dispatch decoder (the row `rxisr`, "dispatch only"). -/
def decodeTableWord (nbits w : Nat) : Option Instr :=
  match tableWord nbits w with
  | none => none
  | some word =>
    match decode .mainline word with
    | .ok i => some i
    | .error _ =>
      match decode .dispatch word with
      | .ok i => some i
      | .error _ => none

/-! Every constructor's word, written out from its row of R84/R85 (the `encoding` column of spec/opcode_table.json). -/

theorem decode_claim_word :
    decode .mainline 0b0000000000000000000000000000000000000001#40 = .ok .claim := by decide

theorem decode_release_word :
    decode .mainline 0b0000000000000000000000000000000000000010#40 = .ok .release := by decide

/-- `config 1, 115200`, R102's example word 0x0001C20013: 115200 = 0x1C200. -/
theorem decode_config_word :
    decode .mainline 0b0000000000000001110000100000000000010011#40 = .ok (.config true 115200) := by decide

theorem decode_rdyq_word :
    decode .mainline 0b0000000000000000000000000000000000000100#40 = .ok .rdyq := by decide

/-- `wrnb 0x48`, R140's example word 0x0000004805. -/
theorem decode_wrnb_word :
    decode .mainline 0b0000000000000000000000000100100000000101#40 = .ok (.wrnb 0x48) := by decide

/-- `wrblk 0x41`, R141's example word 0x0000004106. -/
theorem decode_wrblk_word :
    decode .mainline 0b0000000000000000000000000100000100000110#40 = .ok (.wrblk 0x41) := by decide

theorem decode_rxisr_word :
    decode .dispatch 0b0000000000000000000000000000000000000111#40 = .ok .rxisr := by decide

end Sys2Proof
end

