-- ==== Sys2Proof/Machine/State.lean ====
section
/-! DEFINITION. Every piece of state the spec gives the machine (10_state.md), as plain data, and the state after
power-on reset (R171). INVENTORY.md lists each field with its rule and reset value. -/

namespace Sys2Proof.Machine

/-! ## The UCB's own names -/

/-- `cur`: the command running on the mainline agent (R19, R21). -/
inductive Cmd where
  | claim
  | release
  | config
  | rdyq
  | wrnb
  | wrblk
  deriving DecidableEq, Repr

/-- `seq`, the configure state machine (R22). -/
inductive SeqState where
  | disabled
  | resetting
  | configuring
  | enabled
  deriving DecidableEq, Repr

/-- `isr_sp` while the ISR agent runs: steps I0, I1, I2 (R27, R142). -/
inductive IsrStep where
  | i0
  | i1
  | i2
  deriving DecidableEq, Repr

/-- The spec's faults (R152): sticky observations, which never stop the machine (R151). -/
inductive FaultName where
  | illegalCmd       -- `F_ILLEGAL_CMD`, code 1
  | txOverrun        -- `F_TX_OVERRUN`, code 2
  | txDisabled       -- `F_TX_DISABLED`, code 3
  | rxOverflow       -- `F_RX_OVERFLOW`, code 4
  | rxEmptyRead      -- `F_RX_EMPTY_READ`, code 5
  | syncViolation    -- `F_SYNC_VIOLATION`, code 6
  | resetAccess      -- `F_RESET_ACCESS`, code 7
  | protectedWrite   -- `F_PROTECTED_WRITE`, code 8
  deriving DecidableEq, Repr

/-- The code column of R152. -/
def FaultName.code : FaultName → Nat
  | .illegalCmd => 1
  | .txOverrun => 2
  | .txDisabled => 3
  | .rxOverflow => 4
  | .rxEmptyRead => 5
  | .syncViolation => 6
  | .resetAccess => 7
  | .protectedWrite => 8

/-- Every fault name, in code order: the canonical order of a fault set. -/
def FaultName.all : List FaultName :=
  [.illegalCmd, .txOverrun, .txDisabled, .rxOverflow, .rxEmptyRead, .syncViolation, .resetAccess, .protectedWrite]

/-! ## The engine (10_state.md sections 2 and 3) -/

/-- CTRLA without `ENABLE` and `SWRST` (R33–R38). Field widths follow the encodings G3–G7, general knowledge (log entry 11). -/
structure Ctrla where
  mode : BitVec 3
  dord : BitVec 1
  txpo : BitVec 2
  rxpo : BitVec 2
  sampr : BitVec 3
  runstdby : Bool
  /-- `CTRLA.OTHER`: the bits of the 32 that no field above, `ENABLE` or `SWRST` names. -/
  other : BitVec 18
  deriving DecidableEq, Repr

/-- CTRLB (R40). Field widths follow G8, general knowledge (log entry 11). -/
structure Ctrlb where
  chsize : BitVec 3
  txen : Bool
  rxen : Bool
  /-- `CTRLB.OTHER`: the remaining bits of the 32. -/
  other : BitVec 27
  deriving DecidableEq, Repr

/-- The engine's registers and hidden state (R30, R46). `CTRLA.SWRST`, `SYNCBUSY.SWRST` and `eng.swrst_pending` are one
bit (R46) and are stored once; `INTFLAG.DRE` and `irq_req` are computed (Machine/Flags.lean). -/
structure Engine where
  ctrla : Ctrla
  /-- `eng.ENABLE_applied`. -/
  enableApplied : Bool
  /-- `BAUD.BAUD`. -/
  baud : BitVec 16
  /-- `eng.CTRLB`, the applied CTRLB. -/
  ctrlb : Ctrlb
  /-- `INTEN.RXC`. -/
  intenRxc : Bool
  /-- `INTFLAG.RXC`. -/
  rxc : Bool
  /-- `SYNCBUSY.ENABLE`. -/
  syncEnable : Bool
  /-- `SYNCBUSY.CTRLB`. -/
  syncCtrlb : Bool
  /-- `eng.swrst_pending` = `SYNCBUSY.SWRST`. -/
  swrstPending : Bool
  /-- `eng.pend_enable`. -/
  pendEnable : Option Bool
  /-- `eng.pend_ctrlb`. -/
  pendCtrlb : Option Ctrlb
  /-- `eng.tx_hold`, `none` when empty. -/
  txHold : Option Byte
  /-- `eng.rx_data`. -/
  rxData : Byte
  deriving DecidableEq, Repr

/-- Hardware defaults: every CTRLA field 0 (R30, D22). -/
def Ctrla.reset : Ctrla where
  mode := 0
  dord := 0
  txpo := 0
  rxpo := 0
  sampr := 0
  runstdby := false
  other := 0

/-- Hardware defaults: every CTRLB field 0 (R30, D22). -/
def Ctrlb.reset : Ctrlb where
  chsize := 0
  txen := false
  rxen := false
  other := 0

/-- The engine at its defaults (R30, R46), with the byte the spec leaves unspecified given by the caller. -/
def Engine.resetWith (rxData : Byte) : Engine where
  ctrla := Ctrla.reset
  enableApplied := false
  baud := 0
  ctrlb := Ctrlb.reset
  intenRxc := false
  rxc := false
  syncEnable := false
  syncCtrlb := false
  swrstPending := false
  pendEnable := none
  pendCtrlb := none
  txHold := none
  rxData := rxData

/-! ## The platform (R48) -/

/-- Where a pin is routed (R48, R61): an alternate function, or general I/O. -/
inductive PinFn where
  | gpio                      -- `GPIO`
  | alternate (fn : Nat)      -- the function `fn`; the UCB only ever selects `UART_PIN_FN`
  deriving DecidableEq, Repr

/-- The two physical lines (R5). -/
inductive Pin where
  | tx
  | rx
  deriving DecidableEq, Repr

/-- The identifier of a line, `TX_PIN` or `RX_PIN`. -/
def Pin.id (p : Params) : Pin → Nat
  | .tx => p.txPin
  | .rx => p.rxPin

/-- The platform state the capabilities change (R48). -/
structure Platform where
  /-- `pin_fn[TX_PIN]`. -/
  txPinFn : PinFn
  /-- `pin_fn[RX_PIN]`. -/
  rxPinFn : PinFn
  busClkOn : Bool
  gclkRouted : Bool
  lineUnmasked : Bool
  deriving DecidableEq, Repr

/-- The platform at power-on (R52). DESIGN CHOICE: `bus_clk_on` and `gclk_routed`, which R52 leaves unspecified, are 0
(log entry 1). -/
def Platform.reset : Platform where
  txPinFn := .gpio
  rxPinFn := .gpio
  busClkOn := false
  gclkRouted := false
  lineUnmasked := false

/-! ## The divisor datapath (R26) -/

/-- The divisor datapath registers, with the widths of R26. -/
structure Datapath where
  frag0 : BitVec 33
  frag1 : BitVec 10
  frag2 : BitVec 10
  frag3 : BitVec 10
  t3 : BitVec 33
  t2 : BitVec 33
  t1 : BitVec 33
  op1 : BitVec 52
  dReg : BitVec 16
  deriving DecidableEq, Repr

/-- The reciprocal of the clock at binary-point precision `k`: `floor(2^k / F)` (R123, R124). -/
def reciprocal (f : BitVec 32) (k : Nat) : Nat := 2 ^ k / f.toNat

/-- The datapath at reset: the fragments are loaded from `F` (R172); DESIGN CHOICE: the rest is 0 (log entry 1). -/
def Datapath.reset (f : BitVec 32) : Datapath where
  frag0 := BitVec.ofNat 33 (reciprocal f 32)
  frag1 := BitVec.ofNat 10 (reciprocal f 42 &&& 0x3FF)
  frag2 := BitVec.ofNat 10 (reciprocal f 52 &&& 0x3FF)
  frag3 := BitVec.ofNat 10 (reciprocal f 62 &&& 0x3FF)
  t3 := 0
  t2 := 0
  t1 := 0
  op1 := 0
  dReg := 0

/-! ## The event log (R63) -/

/-- `RD`: a register, the fields read and the values they gave (R57). One constructor per field list the sequences read. -/
inductive ReadEntry where
  | ctrlaEnable (v : Bool)                       -- `RD(CTRLA.{ENABLE=v})`
  | syncbusyReset (swrst enable : Bool)          -- `RD(SYNCBUSY.{SWRST=,ENABLE=})`
  | syncbusyCtrlb (v : Bool)                     -- `RD(SYNCBUSY.{CTRLB=v})`
  | syncbusyEnable (v : Bool)                    -- `RD(SYNCBUSY.{ENABLE=v})`
  | intflagDre (v : Bool)                        -- `RD(INTFLAG.{DRE=v})`
  | intflagRxc (v : Bool)                        -- `RD(INTFLAG.{RXC=v})`
  | data (b : Byte)                              -- `RD(DATA.{DATA=b})`
  deriving DecidableEq, Repr

/-- `WF`: a single-field write (R58). -/
inductive FieldWrite where
  | ctrlaEnable (v : Bool)
  | ctrlaSwrst (v : Bool)
  deriving DecidableEq, Repr

/-- The values a whole-register write of CTRLA carries (R59, R70); an unlisted field is 0. -/
structure CtrlaWrite where
  fields : Ctrla
  enable : Bool
  swrst : Bool
  deriving DecidableEq, Repr

/-- `WR`: a whole-register write (R59). -/
inductive RegWrite where
  | ctrla (w : CtrlaWrite)
  | baud (d : BitVec 16)
  | ctrlb (c : Ctrlb)
  | intenset (rxc : Bool)
  | data (b : Byte)
  deriving DecidableEq, Repr

/-- `CAP`: a capability call with its arguments (R61). -/
inductive CapCall where
  | pinmux (pin : Nat) (fn : PinFn)
  | enableBusClock (id : Nat)
  | routeGenerator (periph gen : Nat)
  | unmask (line : Nat)
  deriving DecidableEq, Repr

/-- The entries of `log` (R63). -/
inductive Event where
  | cmd (w : Word40)
  | rsp (v : Bool)
  | rd (r : ReadEntry)
  | wf (w : FieldWrite)
  | wr (w : RegWrite)
  | cap (c : CapCall)
  | deliver (b : Byte)
  | wireTx (b : Byte)
  | wireRx (b : Byte)
  | fault (n : FaultName)
  deriving DecidableEq, Repr

/-! ## The scheduler's moves (R163) -/

/-- Which agent takes the next step, and for the engine which of its steps (R163). The model's own data (log entry 3). -/
inductive Move where
  | host            -- the host presents its next word
  | mainline        -- the mainline agent takes its next step
  | isr             -- the ISR agent is dispatched or takes its next step
  | engSyncEnable   -- R73
  | engSyncCtrlb    -- R73
  | engSwrstDone    -- R74
  | engTx           -- R78
  | line            -- the line delivers its next byte, R79
  deriving DecidableEq, Repr

/-! ## The state -/

/-- The whole state: the UCB record of R19, the engine, the platform, the log, and the model's own fields. -/
structure State where
  /-- The OPEN parameters of R5; no step changes them (log entry 2). -/
  params : Params
  cur : Option Cmd
  sp : Nat
  seq : SeqState
  active : Bool
  rReg : BitVec 32
  cReg : Bool
  bReg : Byte
  eTmp : Bool
  qTmp : Bool
  dp : Datapath
  isrSp : Option IsrStep
  isrF : Bool
  isrByte : Byte
  /-- The fault set (R28) in its canonical form: the names held, in code order. -/
  faults : List FaultName
  rsp : Option Bool
  eng : Engine
  plat : Platform
  /-- The event log, oldest entry first (R49, R63). -/
  log : List Event
  /-- The words the host has still to present, next first (log entry 3). -/
  hostWords : List Word40
  /-- The bytes the line has still to deliver, next first (log entry 3). -/
  lineBytes : List Byte
  /-- The moves the scheduler has still to make, next first (log entry 3). -/
  sched : List Move
  /-- How many free values have been drawn (log entry 4). -/
  draws : Nat
  /-- The embedding application's own state, which only the callback changes and no rule of the block reads (R146; log
  entry 9). -/
  hostState : Nat
  deriving DecidableEq, Repr

/-- The state after power-on reset of the instance with parameters `p` (R51, R52, R171, R172).
DESIGN CHOICE: every field R19 calls unspecified is 0 (log entry 1); the model's own lists are empty (log entry 3). -/
def State.resetWith (p : Params) : State where
  params := p
  cur := none
  sp := 0
  seq := .disabled
  active := false
  rReg := 0
  cReg := false
  bReg := 0
  eTmp := false
  qTmp := false
  dp := Datapath.reset p.sysClkHz
  isrSp := none
  isrF := false
  isrByte := 0
  faults := []
  rsp := none
  eng := Engine.resetWith 0
  plat := Platform.reset
  log := []
  hostWords := []
  lineBytes := []
  sched := []
  draws := 0
  hostState := 0

/-- The state after power-on reset of the instance the spec's vectors use (log entry 2 for the parameters' values). -/
def State.reset : State := State.resetWith Params.default

/-- A reset of the UCB alone: "If a platform resets the UCB and not the engine, the engine keeps its state" (R173).
DEDUCED (log entry 13): the platform stays too, and so do the environment's lists, the host's own state and the count of
draws, which are not the UCB's. No move takes it (R163 lists none). -/
def State.resetUcbOnly (s : State) : State :=
  { State.resetWith s.params with
    eng := s.eng, plat := s.plat, hostWords := s.hostWords, lineBytes := s.lineBytes, sched := s.sched, draws := s.draws
    hostState := s.hostState }

/-- Why the machine stops with a fault. The spec's own faults are `FaultName`s and stop nothing (R151). -/
inductive Fault where
  /-- Raised by a mainline command's meaning when `sp` is beyond its sequence. No sequence sets such an `sp` (R20), so
  no run reaches it: the agent is stuck. Safe: the model stops where the spec gives no step (log entry 6). -/
  | noSuchStep
  deriving DecidableEq, Repr

/-- Why the machine refuses to go on. -/
inductive Refusal where
  /-- An arm of `exec` whose command has no meaning yet. No arm answers it now. Safe. -/
  | notModelled (mnemonic : String)
  /-- Raised by `step` when `F = 0`: "F = 0 is not a legal parameter. A model refuses to instantiate the block with it"
  (D37, U10). Safe: no instance of the hardware is refused. -/
  | zeroClock
  deriving DecidableEq, Repr

/-- What a step answers. -/
abbrev Answer := Host.Outcome State Fault Refusal

end Sys2Proof.Machine
end

