-- ==== Sys2Proof/Machine/Operands.lean ====
section
/-! DEFINITION. Operand forms (R93), the values CONFIG writes to whole registers (R33–R40, R114, R117), and the
informative address map of the engine's registers (R54). -/

namespace Sys2Proof.Machine

/-- The command name of a mainline instruction (R21); RXISR runs on the ISR agent and has none. -/
def cmdOf : Instr → Option Cmd
  | .claim => some .claim
  | .release => some .release
  | .config _ _ => some .config
  | .rdyq => some .rdyq
  | .wrnb _ => some .wrnb
  | .wrblk _ => some .wrblk
  | .rxisr => none

/-- Operand assembly at acceptance (R93): nothing else is latched. -/
def State.loadOperands (s : State) : Instr → State
  | .config c r => { s with cReg := c, rReg := r }
  | .wrnb b => { s with bReg := b }
  | .wrblk b => { s with bReg := b }
  | .claim => s
  | .release => s
  | .rdyq => s
  | .rxisr => s

/-- The running command as an instruction, its operands read from the latches of R25. -/
def State.runningInstr (s : State) : Cmd → Instr
  | .claim => .claim
  | .release => .release
  | .config => .config s.cReg s.rReg
  | .rdyq => .rdyq
  | .wrnb => .wrnb s.bReg
  | .wrblk => .wrblk s.bReg

/-- `USART_INT_CLK` (R33, encoding G3). -/
def usartIntClk : BitVec 3 := 1

/-- `LSB_FIRST` (R34, encoding G4). -/
def lsbFirst : BitVec 1 := 1

/-- `OVS16` (R36, encoding G6). -/
def ovs16 : BitVec 3 := 0

/-- `CHSIZE_8` (R40, encoding G8). -/
def chsize8 : BitVec 3 := 0

/-- The mode/framing write of CONFIG step S13 (R114): six fields, every other CTRLA field 0, `ENABLE` and `SWRST` too. -/
def modeFraming (p : Params) : CtrlaWrite where
  fields :=
    { mode := usartIntClk, dord := lsbFirst, txpo := p.txPad, rxpo := p.rxPad, sampr := ovs16,
      runstdby := p.runInStandby, other := 0 }
  enable := false
  swrst := false

/-- The frame-size/enable-TX/enable-RX write of CONFIG step S16 (R117). -/
def frameControl : Ctrlb where
  chsize := chsize8
  txen := true
  rxen := true
  other := 0

/-! The register layout of R54: informative, general knowledge (G11); no rule and no meaning reads it. -/

/-- The engine's registers (R30, R54). -/
inductive RegName where
  | ctrla
  | ctrlb
  | baud
  | intenclr
  | intenset
  | intflag
  | syncbusy
  | data
  deriving DecidableEq, Repr

/-- The offset column of R54. -/
def RegName.offset : RegName → Nat
  | .ctrla => 0x00
  | .ctrlb => 0x04
  | .baud => 0x0C
  | .intenclr => 0x14
  | .intenset => 0x16
  | .intflag => 0x18
  | .syncbusy => 0x1C
  | .data => 0x28

/-- The width column of R54, in bits. -/
def RegName.width : RegName → Nat
  | .ctrla => 32
  | .ctrlb => 32
  | .baud => 16
  | .intenclr => 8
  | .intenset => 8
  | .intflag => 8
  | .syncbusy => 32
  | .data => 16

/-- A register's address for an instance: its offset from the engine's base address (R54). -/
def RegName.address (p : Params) (r : RegName) : Nat := p.engineBase + r.offset

end Sys2Proof.Machine
end

