-- ==== Sys2Proof/Machine/Ops.lean ====
section
/-! DEFINITION. The operations every meaning is built from: the event log, faults, draws, capabilities, delivery,
accepting and completing a command, and the interrupt's entry and return. -/

namespace Sys2Proof.Machine

/-! ## Log, faults, draws -/

/-- Append one entry to `log` (R49, R63). -/
def State.emit (s : State) (e : Event) : State := { s with log := s.log ++ [e] }

/-- `faults ∪ {n}` in the canonical form: the names held, in code order (R28). -/
def addFault (n : FaultName) (fs : List FaultName) : List FaultName :=
  FaultName.all.filter fun m => decide (m = n) || decide (m ∈ fs)

/-- `raise Fault(n)` (R151): the fault is recorded and logged, and the step goes on. -/
def State.raiseFault (s : State) (n : FaultName) : State :=
  { s with faults := addFault n s.faults, log := s.log ++ [.fault n] }

/-- Draw a fresh bit (R14 "Draw"): a free value, never used twice. -/
def State.drawBit (s : State) : Bool × State := (Config.freeBit s.draws, { s with draws := s.draws + 1 })

/-- Draw a fresh byte (R14 "Draw"). -/
def State.drawByte (s : State) : Byte × State := (Config.freeByte s.draws, { s with draws := s.draws + 1 })

/-! ## Capabilities (R61, R82) and delivery (R62) -/

/-- `pin_fn[p] <- fn` (R82). -/
def Platform.setPin (pl : Platform) (p : Pin) (fn : PinFn) : Platform :=
  match p with
  | .tx => { pl with txPinFn := fn }
  | .rx => { pl with rxPinFn := fn }

/-- `pin_fn[p]`. -/
def Platform.pinFn (pl : Platform) : Pin → PinFn
  | .tx => pl.txPinFn
  | .rx => pl.rxPinFn

/-- `UART_PIN_FN` as a pin function. -/
def State.uartFn (s : State) : PinFn := .alternate s.params.uartPinFn

/-- `Cap(pinmux, p, fn)`. -/
def State.capPinmux (s : State) (p : Pin) (fn : PinFn) : State :=
  { s with plat := s.plat.setPin p fn }.emit (.cap (.pinmux (p.id s.params) fn))

/-- `Cap(enable_bus_clock, BUS_CLOCK_ID)`. -/
def State.capEnableBusClock (s : State) : State :=
  { s with plat := { s.plat with busClkOn := true } }.emit (.cap (.enableBusClock s.params.busClockId))

/-- `Cap(route_generator, PERIPH_CLOCK_ID, GCLK_GEN_ID)`. -/
def State.capRouteGenerator (s : State) : State :=
  { s with plat := { s.plat with gclkRouted := true } }.emit
    (.cap (.routeGenerator s.params.periphClockId s.params.gclkGenId))

/-- `Cap(unmask, IRQ_LINE)`. -/
def State.capUnmask (s : State) : State :=
  { s with plat := { s.plat with lineUnmasked := true } }.emit (.cap (.unmask s.params.irqLine))

/-- "invoke F(byte)" (R62): what the bound callback does to the host's own state; the no-op does nothing (R146). -/
def invokeCallback (callback : Callback) (b : Byte) (host : Nat) : Nat :=
  match callback with
  | .noop => host
  | .hostFunction ref => Config.callbackEffect ref b host

/-- `Deliver(b)` (R62, R146): the bound callback is invoked with `b`, and `DELIVER(b)` is logged. The UCB waits for no
result from it, and it issues no command. -/
def State.deliver (s : State) (b : Byte) : State :=
  { s with hostState := invokeCallback s.params.callback b s.hostState }.emit (.deliver b)

/-! ## Running a command on the mainline agent -/

/-- `sp <- n` (R20). -/
def State.gotoStep (s : State) (n : Nat) : State := { s with sp := n }

/-- The mainline port is ready exactly when no command and no ISR runs (R90). -/
def State.portReady (s : State) : Bool := s.cur.isNone && s.isrSp.isNone

/-- Acceptance of the legal word of `i` for command `c` (R21, R90): log `CMD`, load the latches, set `cur`, `sp <- 0`. -/
def State.accept (s : State) (i : Instr) (c : Cmd) : State :=
  { s.loadOperands i with cur := some c, sp := 0, log := s.log ++ [.cmd (encode i)] }

/-- Acceptance of an illegal word (R88, R90, R153): `CMD(word)`, the fault, no sequence and no response. -/
def State.acceptIllegal (s : State) (w : Word40) : State := (s.emit (.cmd w)).raiseFault .illegalCmd

/-- `done(v)`: the last step of every mainline sequence (R89, 40_pins.md): `rsp <- v`, log `RSP(v)`, `cur <- none`. -/
def State.complete (s : State) (v : Bool) : State :=
  { s with rsp := some v, log := s.log ++ [.rsp v], cur := none }

/-- One step of the mainline command `c` on behalf of instruction `i`: while the ISR runs the mainline takes no step
(R163.3); when the port is ready the command is accepted (R90); when `c` is the running command its next numbered step
`seq` is taken (R20). A command that is not the running one is not accepted and nothing happens (log entry 5). -/
def mainlineStep (i : Instr) (c : Cmd) (seq : State → Answer) (s : State) : Answer :=
  if s.isrSp.isSome then .next s
  else
    match s.cur with
    | none => .next (s.accept i c)
    | some running => if running = c then seq s else .next s

/-! ## Taking the interrupt and returning from it (R164–R166) -/

/-- Dispatch (R91, R164, R165): the word is presented on the dispatch port and `isr_sp <- 0`. Nothing is saved and no
mode, mask or mainline state changes; the one entry is step I0. Its guard is `State.dispatchReady` (Machine/Flags.lean). -/
def State.takeInterrupt (s : State) : State :=
  { s with isrSp := some .i0, log := s.log ++ [.cmd rxisrWord] }

/-- Return from the interrupt (R166): `isr_sp <- none`; nothing is restored, because nothing was saved. -/
def State.returnFromInterrupt (s : State) : State := { s with isrSp := none }

end Sys2Proof.Machine
end

