-- ==== Sys2Proof/Machine/Flags.lean ====
section
/-! DEFINITION. Every flag the block computes: DRE (R42), the interrupt request (R47), the dispatch guard (R164), the
busy condition `NotBusy` (R44), and the guards of the engine's and the line's steps (R73, R74, R78, R79). -/

namespace Sys2Proof.Machine

/-- The transmitter is on: `ENABLE` applies 1, no enable synchronisation is pending and `CTRLB.TXEN = 1` (R42, R76, R155). -/
def Engine.transmitterOn (e : Engine) : Bool := e.enableApplied && !e.syncEnable && e.ctrlb.txen

/-- `INTFLAG.DRE` as a read sees it (R42): `tx_hold = empty` while the transmitter is on, else a fresh draw. -/
def State.dreValue (s : State) : Bool × State :=
  if s.eng.transmitterOn then (s.eng.txHold.isNone, s) else s.drawBit

/-- `CTRLA.ENABLE` as a read sees it (R67): the applied value, or a draw while its synchronisation is pending. -/
def State.enableValue (s : State) : Bool × State :=
  if s.eng.syncEnable then s.drawBit else (s.eng.enableApplied, s)

/-- `NotBusy` on the values one `SYNCBUSY` read gave (R44). -/
def notBusy (swrst enable : Bool) : Bool := !swrst && !enable

/-- `irq_req` (R47), a level. -/
def Engine.irqReq (e : Engine) : Bool := e.rxc && e.intenRxc && !e.swrstPending

/-- The guard of Dispatch (R164). -/
def State.dispatchReady (s : State) : Bool := s.eng.irqReq && s.plat.lineUnmasked && s.isrSp.isNone

/-- The guard of EngTx (R78). -/
def Engine.txReady (e : Engine) : Bool := e.enableApplied && e.ctrlb.txen && e.txHold.isSome

/-- When the line may deliver a byte (R79). -/
def Engine.rxReady (e : Engine) : Bool := e.enableApplied && e.ctrlb.rxen && !e.swrstPending

/-- The engine is enabled or an enable value is pending: whole writes of CTRLA, BAUD and CTRLB are protected (R81). -/
def Engine.writeProtected (e : Engine) : Bool := e.enableApplied || e.pendEnable.isSome

end Sys2Proof.Machine
end

