-- ==== Sys2Proof/Machine/Engine.lean ====
section
/-! DEFINITION. The transactions of R57–R60 and what the engine does in response (R67–R72, R75–R77), with the checks of
R80 and R81 made first, in the order of R161; and the engine's and the line's own steps (R73, R74, R78, R79). -/

namespace Sys2Proof.Machine

/-! ## Reads (R57) -/

/-- A read of one flag outside `SYNCBUSY`: during an engine reset it faults and returns a draw (R80), otherwise `value`
gives it. The `RD` entry stands before the `FAULT` entry (R152). -/
def State.readFlag (s : State) (entry : Bool → ReadEntry) (value : State → Bool × State) : Bool × State :=
  if s.eng.swrstPending then
    let d := s.drawBit
    (d.1, (d.2.emit (.rd (entry d.1))).raiseFault .resetAccess)
  else
    let d := value s
    (d.1, d.2.emit (.rd (entry d.1)))

/-- `RegRead(CTRLA.ENABLE)` (R67). -/
def State.readEnable (s : State) : Bool × State := s.readFlag .ctrlaEnable State.enableValue

/-- `RegRead(INTFLAG.DRE)` (R42). -/
def State.readDre (s : State) : Bool × State := s.readFlag .intflagDre State.dreValue

/-- `RegRead(INTFLAG.RXC)` (R43). -/
def State.readRxc (s : State) : Bool × State := s.readFlag .intflagRxc fun s => (s.eng.rxc, s)

/-- `RegRead(SYNCBUSY.(SWRST, ENABLE))`: one atomic read of two fields (R57, R66), legal during an engine reset (R80);
the value returned is `NotBusy` (R44). -/
def State.readNotBusy (s : State) : Bool × State :=
  (notBusy s.eng.swrstPending s.eng.syncEnable,
   s.emit (.rd (.syncbusyReset s.eng.swrstPending s.eng.syncEnable)))

/-- `RegRead(SYNCBUSY.CTRLB)`. -/
def State.readSyncCtrlb (s : State) : Bool × State :=
  (s.eng.syncCtrlb, s.emit (.rd (.syncbusyCtrlb s.eng.syncCtrlb)))

/-- `RegRead(SYNCBUSY.ENABLE)`. -/
def State.readSyncEnable (s : State) : Bool × State :=
  (s.eng.syncEnable, s.emit (.rd (.syncbusyEnable s.eng.syncEnable)))

/-- `RegRead(DATA)` (R77): returns `rx_data` and clears `INTFLAG.RXC`; with `RXC = 0` it faults and returns a draw;
during an engine reset R80 comes first (R161). -/
def State.readData (s : State) : Byte × State :=
  if s.eng.swrstPending then
    let d := s.drawByte
    (d.1, (d.2.emit (.rd (.data d.1))).raiseFault .resetAccess)
  else if s.eng.rxc then
    (s.eng.rxData, { s with eng := { s.eng with rxc := false } }.emit (.rd (.data s.eng.rxData)))
  else
    let d := s.drawByte
    (d.1, (d.2.emit (.rd (.data d.1))).raiseFault .rxEmptyRead)

/-! ## Writes (R58, R59) -/

/-- A write transaction: its entry is logged, then the checks of R161 are made in order: access during reset (R80), enable
protection where it applies (R81), then the register's own rule. An access that faults is ignored. -/
def State.write (s : State) (entry : Event) (enableProtected : Bool) (effect : State → State) : State :=
  if s.eng.swrstPending then (s.emit entry).raiseFault .resetAccess
  else if enableProtected && s.eng.writeProtected then (s.emit entry).raiseFault .protectedWrite
  else effect (s.emit entry)

/-- The engine's response to `CTRLA.ENABLE <- v` (R68). -/
def State.startEnableSync (s : State) (v : Bool) : State :=
  if s.eng.syncEnable || s.eng.swrstPending then s.raiseFault .syncViolation
  else { s with eng := { s.eng with pendEnable := some v, syncEnable := true } }

/-- The engine's response to `CTRLA.SWRST <- 1` (R69). -/
def State.startSwrst (s : State) : State :=
  if s.eng.syncEnable || s.eng.swrstPending then s.raiseFault .syncViolation
  else { s with eng := { s.eng with swrstPending := true } }

/-- `RegWriteField(CTRLA.ENABLE, v)` (R58, R68). -/
def State.writeEnable (s : State) (v : Bool) : State :=
  s.write (.wf (.ctrlaEnable v)) false fun s => s.startEnableSync v

/-- `RegWriteField(CTRLA.SWRST, v)` (R58, R69): writing 0 has no effect. -/
def State.writeSwrst (s : State) (v : Bool) : State :=
  s.write (.wf (.ctrlaSwrst v)) false fun s => if v then s.startSwrst else s

/-- Whether a whole write of CTRLA meets the check of R68 or R69 (R70, R161): `ENABLE` acts when it differs from the applied
enable and `SWRST` when it is 1, in that order, so a `SWRST` that follows an acting `ENABLE` finds the synchronisation it
started in progress. DEDUCED (log entry 14): each of the two bits is judged on its own. -/
def State.ctrlaConflict (s : State) (w : CtrlaWrite) : Bool :=
  (w.enable != s.eng.enableApplied || w.swrst) && (s.eng.syncEnable || s.eng.swrstPending) ||
    (w.enable != s.eng.enableApplied && w.swrst)

/-- The engine's response to a whole write of CTRLA (R70): the seven fields at once, and a bit that acts acts as R68 or R69.
A write that meets the check of one of them raises that one fault and is ignored whole (R161). -/
def State.applyCtrla (s : State) (w : CtrlaWrite) : State :=
  if s.ctrlaConflict w then s.raiseFault .syncViolation
  else
    let s := { s with eng := { s.eng with ctrla := w.fields } }
    if w.enable != s.eng.enableApplied then s.startEnableSync w.enable
    else if w.swrst then s.startSwrst
    else s

/-- `RegWriteReg(CTRLA, …)` (R59, R70, R81). -/
def State.writeCtrla (s : State) (w : CtrlaWrite) : State :=
  s.write (.wr (.ctrla w)) true fun s => s.applyCtrla w

/-- `RegWriteReg(BAUD, …)` (R59, R71, R81): at once, not synchronised. -/
def State.writeBaud (s : State) (d : BitVec 16) : State :=
  s.write (.wr (.baud d)) true fun s => { s with eng := { s.eng with baud := d } }

/-- The engine's response to a whole write of CTRLB (R72). -/
def State.startCtrlbSync (s : State) (c : Ctrlb) : State :=
  if s.eng.syncCtrlb then s.raiseFault .syncViolation
  else { s with eng := { s.eng with pendCtrlb := some c, syncCtrlb := true } }

/-- `RegWriteReg(CTRLB, …)` (R59, R72, R81). -/
def State.writeCtrlb (s : State) (c : Ctrlb) : State :=
  s.write (.wr (.ctrlb c)) true fun s => s.startCtrlbSync c

/-- `RegWriteReg(INTENSET, …)` (R41, R75): write-one-to-set, a zero bit changes nothing. -/
def State.writeIntenset (s : State) (rxc : Bool) : State :=
  s.write (.wr (.intenset rxc)) false fun s =>
    { s with eng := { s.eng with intenRxc := s.eng.intenRxc || rxc } }

/-- The engine's response to `DATA <- b` (R76): `F_TX_DISABLED` is checked before `F_TX_OVERRUN` (R161). -/
def State.fillTxHold (s : State) (b : Byte) : State :=
  if !s.eng.transmitterOn then s.raiseFault .txDisabled
  else if s.eng.txHold.isSome then s.raiseFault .txOverrun
  else { s with eng := { s.eng with txHold := some b } }

/-- `RegWriteReg(DATA, …)` (R59, R76). -/
def State.writeData (s : State) (b : Byte) : State :=
  s.write (.wr (.data b)) false fun s => s.fillTxHold b

/-! ## Steps of the engine agent and of the line. A step whose guard does not hold changes nothing (log entry 5). -/

/-- The disable arm of EngSyncEnable (R73): a byte still in `tx_hold` is sent or not, as a draw decides, and discarded. -/
def State.discardTxHold (s : State) : State :=
  match s.eng.txHold with
  | none => s
  | some b =>
    let d := s.drawBit
    { d.2 with
      eng := { s.eng with txHold := none }
      log := if d.1 then s.log ++ [.wireTx b] else s.log }

/-- EngSyncEnable (R73). -/
def State.engSyncEnable (s : State) : State :=
  match s.eng.pendEnable with
  | none => s
  | some v =>
    let s := { s with eng := { s.eng with enableApplied := v, pendEnable := none, syncEnable := false } }
    if v then s else s.discardTxHold

/-- EngSyncCtrlb (R73). -/
def State.engSyncCtrlb (s : State) : State :=
  match s.eng.pendCtrlb with
  | none => s
  | some c => { s with eng := { s.eng with ctrlb := c, pendCtrlb := none, syncCtrlb := false } }

/-- EngSwrstDone (R74): every engine field takes its default and the hidden state its reset values (R46); `rx_data`, which
R46 leaves unspecified, takes a free value (log entry 4). Platform state is not touched. -/
def State.engSwrstDone (s : State) : State :=
  if s.eng.swrstPending then
    let d := s.drawByte
    { d.2 with eng := Engine.resetWith d.1 }
  else s

/-- EngTx (R78). -/
def State.engTx (s : State) : State :=
  match s.eng.txHold with
  | none => s
  | some b =>
    if s.eng.txReady then { s with eng := { s.eng with txHold := none } }.emit (.wireTx b) else s

/-- EngRx(b) (R79), where the line may deliver: a byte that arrives while an earlier one is unread is not stored. -/
def State.engRx (s : State) (b : Byte) : State :=
  if s.eng.rxc then (s.emit (.wireRx b)).raiseFault .rxOverflow
  else { s with eng := { s.eng with rxData := b, rxc := true } }.emit (.wireRx b)

/-- The line's step: it delivers its next byte when R79 allows it. -/
def State.lineStep (s : State) : State :=
  match s.lineBytes with
  | [] => s
  | b :: rest => if s.eng.rxReady then { s with lineBytes := rest }.engRx b else s

end Sys2Proof.Machine
end

