-- ==== Sys2Proof/Machine/ByteExchange.lean ====
section
/-! DEFINITION. The byte exchange commands RDYQ (R139), WRNB (R140), WRBLK (R141) and the interrupt entry RXISR (R142). -/

namespace Sys2Proof.Machine

/-- RDYQ's one step Q0 (R139): one read of DRE, and the response is the bit read. -/
def rdyqStep (s : State) : Answer :=
  match s.sp with
  | 0 =>
    let r := s.readDre
    .next ({ r.2 with qTmp := r.1 }.complete r.1)
  | _ => .fault .noSuchStep

/-- `rdyq` (R139). -/
def execRdyq (s : State) : Answer := mainlineStep .rdyq .rdyq rdyqStep s

/-- WRNB's one step N0 (R140): the write, unchecked, and the response 0 whether or not the engine faulted. -/
def wrnbStep (s : State) : Answer :=
  match s.sp with
  | 0 => .next ((s.writeData s.bReg).complete false)
  | _ => .fault .noSuchStep

/-- `wrnb b` (R140). -/
def execWrnb (b : Byte) (s : State) : Answer := mainlineStep (.wrnb b) .wrnb wrnbStep s

/-- WRBLK's steps B0, B1 (R141): one DRE read a step until it gives 1, then the write. -/
def wrblkStep (s : State) : Answer :=
  match s.sp with
  | 0 =>
    let r := s.readDre
    .next ({ r.2 with qTmp := r.1 }.gotoStep (if r.1 then 1 else 0))
  | 1 => .next ((s.writeData s.bReg).complete false)
  | _ => .fault .noSuchStep

/-- `wrblk b` (R141). -/
def execWrblk (b : Byte) (s : State) : Answer := mainlineStep (.wrblk b) .wrblk wrblkStep s

/-- I0 (R142): the one status check; with `RXC = 0` the ISR returns without reading `DATA`. -/
def rxisrI0 (s : State) : State :=
  let r := s.readRxc
  let s := { r.2 with isrF := r.1 }
  if r.1 then { s with isrSp := some .i1 } else s.returnFromInterrupt

/-- I1 (R142): the data read, which clears `INTFLAG.RXC`. -/
def rxisrI1 (s : State) : State :=
  let r := s.readData
  { r.2 with isrByte := r.1, isrSp := some .i2 }

/-- I2 (R142): deliver the byte and return. -/
def rxisrI2 (s : State) : State := (s.deliver s.isrByte).returnFromInterrupt

/-- `rxisr` (R142): dispatch when the ISR agent is idle and its guard holds (R164), otherwise the agent's next step. With
the guard false the agent has no step and nothing happens (log entry 5). -/
def execRxisr (s : State) : Answer :=
  match s.isrSp with
  | none => if s.dispatchReady then .next s.takeInterrupt else .next s
  | some .i0 => .next (rxisrI0 s)
  | some .i1 => .next (rxisrI1 s)
  | some .i2 => .next (rxisrI2 s)

end Sys2Proof.Machine
end

