-- ==== Sys2Proof/Machine/Baud.lean ====
section
/-! DEFINITION. The baud divisor generator (42_baud_divisor.md): the fixed-point datapath over the registers of R26, the
rate-to-divisor function it computes, the alternative definition of R138, and the rate a divisor produces (R134). -/

namespace Sys2Proof.Machine

/-- One stage (R126–R128): `R` times the fragment, plus the running partial result, shifted right by 10. -/
def stage10 (r : BitVec 32) (frag : BitVec 10) (partialResult : Nat) : BitVec 33 :=
  BitVec.ofNat 33 ((r.toNat * frag.toNat + partialResult) >>> 10)

/-- The final stage (R129): the unmasked fragment, shifted right by 12. -/
def stage12 (r : BitVec 32) (frag : BitVec 33) (partialResult : Nat) : BitVec 52 :=
  BitVec.ofNat 52 ((r.toNat * frag.toNat + partialResult) >>> 12)

/-- `trunc_16(65535 - op1)`, computed on integers (R130): the result wraps and is never clamped (R132). -/
def wrapDivisor (op1 : Nat) : BitVec 16 := BitVec.ofInt 16 (65535 - (op1 : Int))

/-- The four stages from the fragment registers, and the result (R126–R130). -/
def Datapath.run (d : Datapath) (r : BitVec 32) : Datapath :=
  let t3 := stage10 r d.frag3 0
  let t2 := stage10 r d.frag2 t3.toNat
  let t1 := stage10 r d.frag1 t2.toNat
  let op1 := stage12 r d.frag0 t1.toNat
  { d with t3 := t3, t2 := t2, t1 := t1, op1 := op1, dReg := wrapDivisor op1.toNat }

/-- `BaudDivisor(R)` for the clock `F` (R122, R130): the datapath run from the fragments of `F`. -/
def baudDivisor (f r : BitVec 32) : BitVec 16 := ((Datapath.reset f).run r).dReg

/-- `D_ref(R)` (R138): `65536 - floor(R * 2^20 / F + 1/2)`, clamped to 0..65535; `floor(a/f + 1/2) = (2a + f) / 2f`. -/
def referenceDivisor (f r : BitVec 32) : BitVec 16 :=
  let rounded : Nat := (2 * (r.toNat * 2 ^ 20) + f.toNat) / (2 * f.toNat)
  BitVec.ofNat 16 (min 65535 (max 0 (65536 - (rounded : Int)))).toNat

/-- The datapath after CONFIG step S14, by `DIVISOR_MODE` (R115, R130, R138). In `REFERENCE_ROUND` the stage registers,
which that definition does not use, keep their values (log entry 7). -/
def State.dividedDatapath (s : State) : Datapath :=
  match s.params.divisorMode with
  | .fixedPoint => s.dp.run s.rReg
  | .referenceRound => { s.dp with dReg := referenceDivisor s.params.sysClkHz s.rReg }

/-- CONFIG step S14: `d_reg <- BaudDivisor(r_reg)` (R115). -/
def State.computeDivisor (s : State) : State := { s with dp := s.dividedDatapath }

/-- `f_baud(D) = F * (65536 - D) / (16 * 65536)` (R134), the bit rate the engine's generator makes from a divisor: "used by
no rule of the UCB". -/
def producedRate (f : BitVec 32) (d : BitVec 16) : ℚ := (f.toNat * (65536 - d.toNat) : ℚ) / (16 * 65536)

end Sys2Proof.Machine
end

