-- ==== Sys2Proof/Machine/Configure.lean ====
section
/-! DEFINITION. CONFIG, the configure/reset sequencer (R102): one definition per numbered step S0–S22. -/

namespace Sys2Proof.Machine

/-- S0: enter `Disabled` and read the enable (R103). -/
def configS0 (s : State) : State :=
  let r := { s with seq := .disabled }.readEnable
  { r.2 with eTmp := r.1 }.gotoStep 1

/-- S1: skip the disable if the engine is not enabled (R103). -/
def configS1 (s : State) : State := s.gotoStep (if s.eTmp then 2 else 4)

/-- A `Poll` of `NotBusy` at step `here` (R60, R44): one read, and the next step only when it holds. -/
def State.pollNotBusy (s : State) (here next : Nat) : State :=
  let r := s.readNotBusy
  r.2.gotoStep (if r.1 then next else here)

/-- S2: the wait before the disable (R104). -/
def configS2 (s : State) : State := s.pollNotBusy 2 3

/-- S3: clear the enable bit (R105). -/
def configS3 (s : State) : State := (s.writeEnable false).gotoStep 4

/-- S4: enter `Resetting` and wait (R106). -/
def configS4 (s : State) : State := { s with seq := .resetting }.pollNotBusy 4 5

/-- S5: trigger the engine's software reset, unconditionally (R107). -/
def configS5 (s : State) : State := (s.writeSwrst true).gotoStep 6

/-- S6: the second wait of `Resetting` (R108). -/
def configS6 (s : State) : State := s.pollNotBusy 6 7

/-- S7: enter `Configuring` and branch on the caller's flag (R109). -/
def configS7 (s : State) : State := { s with seq := .configuring }.gotoStep (if s.cReg then 8 else 11)

/-- S8: CLAIM's first pin, inlined (R111). -/
def configS8 (s : State) : State := (s.capPinmux .tx s.uartFn).gotoStep 9

/-- S9: CLAIM's second pin, inlined (R111). -/
def configS9 (s : State) : State := (s.capPinmux .rx s.uartFn).gotoStep 10

/-- S10: the Active Flag, after both pins (R111). -/
def configS10 (s : State) : State := { s with active := true }.gotoStep 11

/-- S11: the bus clock (R112). -/
def configS11 (s : State) : State := s.capEnableBusClock.gotoStep 12

/-- S12: the core clock's generator (R113). -/
def configS12 (s : State) : State := s.capRouteGenerator.gotoStep 13

/-- S13: the mode/framing write (R114). -/
def configS13 (s : State) : State := (s.writeCtrla (modeFraming s.params)).gotoStep 14

/-- S14: compute the divisor, with no transaction (R115). -/
def configS14 (s : State) : State := s.computeDivisor.gotoStep 15

/-- S15: write the divisor (R116). -/
def configS15 (s : State) : State := (s.writeBaud s.dp.dReg).gotoStep 16

/-- S16: the frame-size/enable-TX/enable-RX write (R117). -/
def configS16 (s : State) : State := (s.writeCtrlb frameControl).gotoStep 17

/-- S17: wait for the CTRLB synchronisation (R118). -/
def configS17 (s : State) : State :=
  let r := s.readSyncCtrlb
  r.2.gotoStep (if r.1 then 17 else 18)

/-- S18: enable the receive-complete interrupt at the peripheral (R119). -/
def configS18 (s : State) : State := (s.writeIntenset true).gotoStep 19

/-- S19: unmask the line at the interrupt controller (R119). -/
def configS19 (s : State) : State := s.capUnmask.gotoStep 20

/-- S20: enter `Enabled` and set the enable bit (R120). -/
def configS20 (s : State) : State := ({ s with seq := .enabled }.writeEnable true).gotoStep 21

/-- S21: wait for the enable field (R120). -/
def configS21 (s : State) : State :=
  let r := s.readSyncEnable
  r.2.gotoStep (if r.1 then 21 else 22)

/-- S22: answer (R120). -/
def configS22 (s : State) : State := s.complete false

/-- CONFIG's numbered steps (R102). -/
def configStep (s : State) : Answer :=
  match s.sp with
  | 0 => .next (configS0 s)
  | 1 => .next (configS1 s)
  | 2 => .next (configS2 s)
  | 3 => .next (configS3 s)
  | 4 => .next (configS4 s)
  | 5 => .next (configS5 s)
  | 6 => .next (configS6 s)
  | 7 => .next (configS7 s)
  | 8 => .next (configS8 s)
  | 9 => .next (configS9 s)
  | 10 => .next (configS10 s)
  | 11 => .next (configS11 s)
  | 12 => .next (configS12 s)
  | 13 => .next (configS13 s)
  | 14 => .next (configS14 s)
  | 15 => .next (configS15 s)
  | 16 => .next (configS16 s)
  | 17 => .next (configS17 s)
  | 18 => .next (configS18 s)
  | 19 => .next (configS19 s)
  | 20 => .next (configS20 s)
  | 21 => .next (configS21 s)
  | 22 => .next (configS22 s)
  | _ => .fault .noSuchStep

/-- `config c, R` (R102): the operands are latched at acceptance (R93) and read from the latches afterwards. -/
def execConfig (c : Bool) (r : BitVec 32) (s : State) : Answer := mainlineStep (.config c r) .config configStep s

end Sys2Proof.Machine
end

