-- ==== Sys2Proof/Machine/Pins.lean ====
section
/-! DEFINITION. The pin ownership commands CLAIM (R98) and RELEASE (R99). -/

namespace Sys2Proof.Machine

/-- CLAIM's numbered steps C0–C2 (R98): both pins before `active`. -/
def claimStep (s : State) : Answer :=
  match s.sp with
  | 0 => .next ((s.capPinmux .tx s.uartFn).gotoStep 1)
  | 1 => .next ((s.capPinmux .rx s.uartFn).gotoStep 2)
  | 2 => .next ({ s with active := true }.complete false)
  | _ => .fault .noSuchStep

/-- `claim` (R98). -/
def execClaim (s : State) : Answer := mainlineStep .claim .claim claimStep s

/-- RELEASE's numbered steps L0–L2 (R99): `active` is cleared before either pin. -/
def releaseStep (s : State) : Answer :=
  match s.sp with
  | 0 => .next ({ s with active := false }.gotoStep 1)
  | 1 => .next ((s.capPinmux .tx .gpio).gotoStep 2)
  | 2 => .next ((s.capPinmux .rx .gpio).complete false)
  | _ => .fault .noSuchStep

/-- `release` (R99). -/
def execRelease (s : State) : Answer := mainlineStep .release .release releaseStep s

end Sys2Proof.Machine
end

