-- ==== Sys2Proof/Machine/Dispatch.lean ====
section
/-! DEFINITION. One arm per command: its meaning is one step of the command (acceptance, or the step its sequence pointer
names; R10, R20, R90, R91). -/

namespace Sys2Proof.Machine

def exec (i : Instr) (s : State) : Host.Outcome State Fault Refusal :=
  match i with
  | .claim => Sys2Proof.Machine.execClaim s
  | .release => Sys2Proof.Machine.execRelease s
  | .config c r => Sys2Proof.Machine.execConfig c r s
  | .rdyq => Sys2Proof.Machine.execRdyq s
  | .wrnb b => Sys2Proof.Machine.execWrnb b s
  | .wrblk b => Sys2Proof.Machine.execWrblk b s
  | .rxisr => Sys2Proof.Machine.execRxisr s

end Sys2Proof.Machine
end

