-- ==== Sys2Proof/Machine/Agents.lean ====
section
/-! DEFINITION. The agents of R163 and their moves: what each does when the scheduler picks it, the scheduler's data, and
placing a command word where the next step takes it. -/

namespace Sys2Proof.Machine

/-- A word presented on a port is decoded (R92); a legal one is run, an illegal one raises `F_ILLEGAL_CMD` and starts no
sequence (R88, R153). -/
def present (p : Port) (w : Word40) (s : State) : Answer :=
  match decode p w with
  | .ok i => exec i s
  | .error _ => .next (s.acceptIllegal w)

/-- The host's move (R90, R163.1): when the port is ready and the host has a word, the word leaves the host and is
accepted. Otherwise the host has no such move and the word waits. -/
def hostMove (s : State) : Answer :=
  if s.portReady then
    match s.hostWords with
    | [] => .next s
    | w :: rest => present .mainline w { s with hostWords := rest }
  else .next s

/-- The mainline agent's move (R163.2): the next step of the running command, its operands in the latches. -/
def mainlineMove (s : State) : Answer :=
  match s.cur with
  | none => .next s
  | some c => exec (s.runningInstr c) s

/-- The ISR agent's move (R163.3, R164): the dispatch port carries only the word of RXISR, whose meaning is the dispatch
or the running ISR's next step. -/
def isrMove (s : State) : Answer := present .dispatch rxisrWord s

/-- What each move does (R163). -/
def runMove (m : Move) (s : State) : Answer :=
  match m with
  | .host => hostMove s
  | .mainline => mainlineMove s
  | .isr => isrMove s
  | .engSyncEnable => .next s.engSyncEnable
  | .engSyncCtrlb => .next s.engSyncCtrlb
  | .engSwrstDone => .next s.engSwrstDone
  | .engTx => .next s.engTx
  | .line => .next s.lineStep

/-- Whether an agent's guard holds: the moves of R163 that have a step in `s`. -/
def Move.enabled (m : Move) (s : State) : Bool :=
  match m with
  | .host => s.portReady && !s.hostWords.isEmpty
  | .mainline => s.cur.isSome && s.isrSp.isNone
  | .isr => s.isrSp.isSome || s.dispatchReady
  | .engSyncEnable => s.eng.pendEnable.isSome
  | .engSyncCtrlb => s.eng.pendCtrlb.isSome
  | .engSwrstDone => s.eng.swrstPending
  | .engTx => s.eng.txReady
  | .line => s.eng.rxReady && !s.lineBytes.isEmpty

/-- The order in which an empty schedule asks the agents: the weakly fair ones first, so that every enabled one is taken
eventually (R73, R74, R78, R163, R164); the line, which has no fairness, last. DESIGN CHOICE (log entry 3). -/
def defaultPriority : List Move :=
  [.engSwrstDone, .engSyncEnable, .engSyncCtrlb, .engTx, .isr, .mainline, .host, .line]

/-- The next move: the schedule's, or with an empty schedule the first enabled one; with none enabled the run has ended
(R17) and the host, which presents nothing, is asked again. -/
def State.nextMove (s : State) : Move :=
  match s.sched with
  | m :: _ => m
  | [] => (defaultPriority.find? fun m => m.enabled s).getD .host

/-- The schedule after one move. -/
def State.tick (s : State) : State := { s with sched := s.sched.tail }

/-- The state in which the next step runs the command word of `nbits` table bits `w` (log entry 8). A word the mainline
decoder rejects and the dispatch decoder takes needs the dispatch guard of R164; any other word is the next the host
presents on a ready port (R90). -/
def State.placeWord (s : State) (nbits w : Nat) : State :=
  match tableWord nbits w with
  | none => s
  | some word =>
    match decode .dispatch word with
    | .ok _ =>
      { s with
        isrSp := none
        eng := { s.eng with rxc := true, intenRxc := true, swrstPending := false }
        plat := { s.plat with lineUnmasked := true }
        sched := .isr :: s.sched }
    | .error _ =>
      { s with cur := none, isrSp := none, hostWords := word :: s.hostWords, sched := .host :: s.sched }

end Sys2Proof.Machine
end

