-- ==== Sys2Proof/Machine/Step.lean ====
section
/-! DEFINITION. One step of the machine: one atomic step of one agent (R10, R163). -/

namespace Sys2Proof.Machine

/-- One step: the scheduler's next move is taken and leaves the schedule. `F = 0` is refused (D37). -/
def step (s : State) : Host.Outcome State Fault Refusal :=
  if s.params.sysClkHz = 0 then .refused .zeroClock else runMove s.nextMove s.tick

/-- `s` with the instruction of the opcode table's word placed where `step` takes its next command. -/
def State.withFetchWord (s : State) (nbits w : Nat) : State := s.placeWord nbits w

end Sys2Proof.Machine
end

