-- ==== Sys2Proof/Safety.lean ====
section
/-! DEFINITION. What counts as a correct run and the words the claims are stated in: observation (R16, R17, R151), runs of
one command and of a list of moves, and the invariant that every step keeps (R24, R103–R121, R143, R157–R160). -/

namespace Sys2Proof.Machine

/-! ## Observation -/

/-- A faulted state: "every claim about the block takes faults = ∅ as a premise" (R151). -/
def State.faulted (s : State) : Bool := !s.faults.isEmpty

/-- The end of a run (R17): the host has no further command, both agents are idle (`cur = none` and `isr_sp = none`, R27,
R47), and no engine step is pending. DEDUCED (log entry 16): the end of a run is an observation and takes no step away, so
where an interrupt is pending its dispatch is still enabled (R164). -/
def State.quiescent (s : State) : Bool :=
  s.hostWords.isEmpty && s.cur.isNone && s.isrSp.isNone &&
    s.eng.pendEnable.isNone && s.eng.pendCtrlb.isNone && !s.eng.swrstPending && !s.eng.txReady

/-- An entry that is neither an acceptance nor a response: what R97 compares "leaving out the CMD and RSP entries". -/
def Event.isTransaction : Event → Bool
  | .cmd _ => false
  | .rsp _ => false
  | .rd _ => true
  | .wf _ => true
  | .wr _ => true
  | .cap _ => true
  | .deliver _ => true
  | .wireTx _ => true
  | .wireRx _ => true
  | .fault _ => true

/-- The fault an entry records, if it records one. -/
def Event.faultName? : Event → Option FaultName
  | .fault n => some n
  | .cmd _ => none
  | .rsp _ => none
  | .rd _ => none
  | .wf _ => none
  | .wr _ => none
  | .cap _ => none
  | .deliver _ => none
  | .wireTx _ => none
  | .wireRx _ => none

/-- The fault set `fs` with the fault of every `FAULT` entry of `es` recorded (R151). -/
def recordFaults (es : List Event) (fs : List FaultName) : List FaultName :=
  (es.filterMap Event.faultName?).foldl (fun held n => addFault n held) fs

/-- An access that is ignored with a fault: its entry and the `FAULT` entry are logged, the fault is recorded, and nothing
else changes (R151, R152). -/
def State.ignoredAccess (s : State) (e : Event) (n : FaultName) : State :=
  { s with faults := addFault n s.faults, log := s.log ++ [e, .fault n] }

/-- The bytes the engine has received, oldest first: the `WIRE_RX` entries (R79). -/
def received (log : List Event) : List Byte :=
  log.filterMap fun
    | .wireRx b => some b
    | .cmd _ => none
    | .rsp _ => none
    | .rd _ => none
    | .wf _ => none
    | .wr _ => none
    | .cap _ => none
    | .deliver _ => none
    | .wireTx _ => none
    | .fault _ => none

/-- The bytes the callback has been given, oldest first: the `DELIVER` entries (R62). -/
def delivered (log : List Event) : List Byte :=
  log.filterMap fun
    | .deliver b => some b
    | .cmd _ => none
    | .rsp _ => none
    | .rd _ => none
    | .wf _ => none
    | .wr _ => none
    | .cap _ => none
    | .wireTx _ => none
    | .wireRx _ => none
    | .fault _ => none

/-- The bytes received and not yet delivered: the one the ISR holds between I1 and I2, then the one in `rx_data`. -/
def State.undelivered (s : State) : List Byte :=
  (if s.isrSp = some .i2 then [s.isrByte] else []) ++ (if s.eng.rxc then [s.eng.rxData] else [])

/-- Every received byte has been delivered exactly once and in order, or still waits (R145). -/
abbrev State.ReceivedInOrder (s : State) : Prop := received s.log = delivered s.log ++ s.undelivered

/-- When each byte was received, every earlier one had been delivered. With `ReceivedInOrder` this says that each `WIRE_RX`
is followed by exactly its `DELIVER` before the next `WIRE_RX` (R145). -/
def DeliveredBeforeNext (log : List Event) : Prop :=
  ∀ before after b, log = before ++ .wireRx b :: after → received before = delivered before

/-- The log without its `CMD` and `RSP` entries (R97). -/
def transactions (log : List Event) : List Event := log.filter Event.isTransaction

/-- Two states with the same engine and draws whose logs hold the same transactions (R97). -/
abbrev SameTransactions (s u : State) : Prop :=
  s.eng = u.eng ∧ s.draws = u.draws ∧ transactions s.log = transactions u.log

/-! ## Runs -/

/-- `n` consecutive steps of one command, no other agent between them. -/
def execTimes : Nat → Instr → State → Answer
  | 0, _, s => .next s
  | n + 1, i, s =>
    match exec i s with
    | .next t => execTimes n i t
    | .fault r => .fault r
    | .refused r => .refused r

/-- The moves of a list, one after the other, whatever the schedule holds. -/
def runMoves : List Move → State → Answer
  | [], s => .next s
  | m :: ms, s =>
    match runMove m s with
    | .next t => runMoves ms t
    | .fault r => .fault r
    | .refused r => .refused r

/-- Both agents are idle: the mainline port is ready (R90). -/
abbrev State.idle (s : State) : Prop := s.cur = none ∧ s.isrSp = none

/-- The mainline agent may step (R163) and stands at step `n` of command `c`. -/
abbrev State.standsAt (s : State) (c : Cmd) (n : Nat) : Prop := s.isrSp = none ∧ s.cur = some c ∧ s.sp = n

/-- One schedule of a whole CONFIG, from acceptance to response, on which each synchronisation completes right after the
write that starts it: the disable (S2, S3) only when the engine was enabled, the pin steps (S8–S10) only with `c`. -/
def configMoves (wasEnabled c : Bool) : List Move :=
  [.host, .mainline, .mainline]
    ++ (if wasEnabled then [.mainline, .mainline, .engSyncEnable] else [])
    ++ [.mainline, .mainline, .engSwrstDone, .mainline, .mainline]
    ++ (if c then [.mainline, .mainline, .mainline] else [])
    ++ [.mainline, .mainline, .mainline, .mainline, .mainline, .mainline, .engSyncCtrlb, .mainline]
    ++ [.mainline, .mainline, .mainline, .engSyncEnable, .mainline, .mainline]

/-- The moves of a run in which the scheduler follows `σ` for ever: what `n` of them answer. -/
def runUnder (σ : Nat → Move) (s : State) : Nat → Answer
  | 0 => .next s
  | n + 1 =>
    match runUnder σ s n with
    | .next t => runMove (σ n) t
    | .fault r => .fault r
    | .refused r => .refused r

/-- The agents and steps R163 calls weakly fair. -/
def fairMoves : List Move := [.mainline, .isr, .engSyncEnable, .engSyncCtrlb, .engSwrstDone, .engTx]

/-- Weak fairness (R73): a weakly fair move whose guard holds continuously is eventually taken. It is a property of an
infinite schedule, so no step can enforce it; claims of termination take it as a premise (R17). -/
def WeaklyFair (σ : Nat → Move) (s : State) : Prop :=
  ∀ m ∈ fairMoves, ∀ n, ∃ k, n ≤ k ∧ (σ k = m ∨ ∃ t, runUnder σ s k = .next t ∧ m.enabled t = false)

/-! ## The invariant -/

/-- `BaudDivisor(r_reg)` for the instance and its `DIVISOR_MODE` (R115, R130, R138). -/
def State.divisor (s : State) : BitVec 16 :=
  match s.params.divisorMode with
  | .fixedPoint => baudDivisor s.params.sysClkHz s.rReg
  | .referenceRound => referenceDivisor s.params.sysClkHz s.rReg

/-- Both pins are routed to the UART function. -/
abbrev State.pinsAreUart (s : State) : Prop := s.plat.txPinFn = s.uartFn ∧ s.plat.rxPinFn = s.uartFn

/-- "no 'active=true while pins are GPIO'" (R24). -/
abbrev State.PinsOwned (s : State) : Prop := s.active = true → s.pinsAreUart

/-- What the pin commands have done when their sequence stands at a step (R98, R99). -/
def State.pinPhase (s : State) : Cmd → Nat → Prop
  | .claim, 1 => s.plat.txPinFn = s.uartFn
  | .claim, 2 => s.pinsAreUart
  | .release, 1 => s.active = false
  | .release, 2 => s.active = false
  | _, _ => True

/-- A busy bit is set exactly while its synchronisation is pending (R44, R46). -/
abbrev State.SyncAgree (s : State) : Prop :=
  s.eng.syncEnable = s.eng.pendEnable.isSome ∧ s.eng.syncCtrlb = s.eng.pendCtrlb.isSome

/-- Nothing is pending at the engine. -/
abbrev State.Quiet (s : State) : Prop :=
  s.eng.pendEnable = none ∧ s.eng.pendCtrlb = none ∧ s.eng.swrstPending = false

/-- Nothing is pending and the engine is disabled. -/
abbrev State.Off (s : State) : Prop := s.Quiet ∧ s.eng.enableApplied = false

/-- The engine exactly as its software reset leaves it (R74), but for the values CONFIG has written since. -/
abbrev State.FreshEngine (s : State) (ctrla : Ctrla) (baud : BitVec 16) : Prop :=
  ∃ rxData, s.eng = { Engine.resetWith rxData with ctrla := ctrla, baud := baud }

/-- Mode, framing and divisor are written, no reset is pending and the holding register is empty (R114, R116, R121). -/
abbrev State.Programmed (s : State) : Prop :=
  s.eng.ctrla = (modeFraming s.params).fields ∧ s.eng.baud = s.divisor ∧
    s.eng.swrstPending = false ∧ s.eng.txHold = none

/-- The CTRLB write has landed (R118). -/
abbrev State.Controlled (s : State) : Prop := s.eng.pendCtrlb = none ∧ s.eng.ctrlb = frameControl

/-- No enable is pending and none is applied. -/
abbrev State.NotEnabled (s : State) : Prop := s.eng.pendEnable = none ∧ s.eng.enableApplied = false

/-- The claim-pins operand has been obeyed and the clocks are on (R111–R113). -/
abbrev State.Routed (s : State) : Prop :=
  (s.cReg = true → s.active = true) ∧ s.plat.busClkOn = true ∧ s.plat.gclkRouted = true

/-- What a CONFIG has established when its sequence stands at a step (R103–R120). -/
def State.configPhase (s : State) : Nat → Prop
  | 0 => s.Quiet
  | 1 => s.Quiet ∧ s.eTmp = s.eng.enableApplied ∧ s.seq = .disabled
  | 2 => s.Quiet ∧ s.seq = .disabled
  | 3 => s.Quiet ∧ s.seq = .disabled
  | 4 => (s.seq = .disabled ∨ s.seq = .resetting) ∧ s.eng.swrstPending = false ∧ s.eng.pendCtrlb = none ∧
      (s.eng.pendEnable = some false ∨ s.NotEnabled)
  | 5 => s.Off ∧ s.seq = .resetting
  | 6 => s.NotEnabled ∧ s.eng.pendCtrlb = none ∧ s.seq = .resetting ∧
      (s.eng.swrstPending = true ∨ s.FreshEngine Ctrla.reset 0)
  | 7 => s.FreshEngine Ctrla.reset 0 ∧ s.seq = .resetting
  | 8 => s.FreshEngine Ctrla.reset 0 ∧ s.seq = .configuring ∧ s.cReg = true
  | 9 => s.FreshEngine Ctrla.reset 0 ∧ s.seq = .configuring ∧ s.cReg = true ∧ s.plat.txPinFn = s.uartFn
  | 10 => s.FreshEngine Ctrla.reset 0 ∧ s.seq = .configuring ∧ s.cReg = true ∧ s.pinsAreUart
  | 11 => s.FreshEngine Ctrla.reset 0 ∧ s.seq = .configuring ∧ (s.cReg = true → s.active = true)
  | 12 => s.FreshEngine Ctrla.reset 0 ∧ s.seq = .configuring ∧ (s.cReg = true → s.active = true) ∧
      s.plat.busClkOn = true
  | 13 => s.FreshEngine Ctrla.reset 0 ∧ s.seq = .configuring ∧ s.Routed
  | 14 => s.FreshEngine (modeFraming s.params).fields 0 ∧ s.seq = .configuring ∧ s.Routed
  | 15 => s.FreshEngine (modeFraming s.params).fields 0 ∧ s.seq = .configuring ∧ s.Routed ∧ s.dp.dReg = s.divisor
  | 16 => s.FreshEngine (modeFraming s.params).fields s.divisor ∧ s.seq = .configuring ∧ s.Routed
  | 17 => s.Programmed ∧ s.seq = .configuring ∧ s.Routed ∧ s.NotEnabled ∧
      (s.eng.pendCtrlb = some frameControl ∨ s.Controlled)
  | 18 => s.Programmed ∧ s.seq = .configuring ∧ s.Routed ∧ s.NotEnabled ∧ s.Controlled
  | 19 => s.Programmed ∧ s.seq = .configuring ∧ s.Routed ∧ s.NotEnabled ∧ s.Controlled ∧ s.eng.intenRxc = true
  | 20 => s.Programmed ∧ s.seq = .configuring ∧ s.Routed ∧ s.NotEnabled ∧ s.Controlled ∧ s.eng.intenRxc = true ∧
      s.plat.lineUnmasked = true
  | 21 => s.Programmed ∧ s.seq = .enabled ∧ s.Routed ∧ s.Controlled ∧ s.eng.intenRxc = true ∧
      s.plat.lineUnmasked = true ∧
      (s.eng.pendEnable = some true ∨ s.eng.pendEnable = none ∧ s.eng.enableApplied = true)
  | 22 => s.Programmed ∧ s.seq = .enabled ∧ s.Routed ∧ s.Controlled ∧ s.eng.intenRxc = true ∧
      s.plat.lineUnmasked = true ∧ s.eng.pendEnable = none ∧ s.eng.enableApplied = true
  | _ => False

/-- What a WRBLK knows at its write: DRE was read 1, and a transmitter that is on has room (R141, R147). -/
abbrev State.WriteReady (s : State) : Prop :=
  s.qTmp = true ∧ (s.eng.transmitterOn = true → s.eng.txHold = none)

/-- What holds at each step of each command. Outside CONFIG nothing is pending at the engine (R103). -/
def State.commandPhase (s : State) : Option Cmd → Nat → Prop
  | none, _ => s.Quiet
  | some .claim, n => n ≤ 2 ∧ s.Quiet ∧ s.pinPhase .claim n
  | some .release, n => n ≤ 2 ∧ s.Quiet ∧ s.pinPhase .release n
  | some .config, n => s.configPhase n
  | some .rdyq, n => n = 0 ∧ s.Quiet
  | some .wrnb, n => n = 0 ∧ s.Quiet
  | some .wrblk, n => s.Quiet ∧ (n = 0 ∨ n = 1 ∧ s.WriteReady)

/-- The transmitter is on and has room, and nothing is pending: what a ready answer tells the host (R147). -/
abbrev State.TxReady (s : State) : Prop := s.eng.transmitterOn = true ∧ s.eng.txHold = none ∧ s.Quiet

/-- A ready answer has been given and the next mainline command is `wrnb b`, presented or running (R147, R182). -/
abbrev State.AwaitingWrite (s : State) (b : Byte) : Prop :=
  s.TxReady ∧
    (s.cur = none ∧ s.hostWords.head? = some (encode (.wrnb b)) ∨ s.cur = some .wrnb ∧ s.sp = 0 ∧ s.bReg = b)

/-- While the ISR runs no engine reset is pending, and until its `DATA` read a byte is waiting (R143). -/
def State.isrPhase (s : State) : Option IsrStep → Prop
  | none => True
  | some .i0 => s.eng.swrstPending = false ∧ s.eng.rxc = true
  | some .i1 => s.eng.swrstPending = false ∧ s.eng.rxc = true ∧ s.isrF = true
  | some .i2 => s.eng.swrstPending = false ∧ s.isrF = true

/-- The fragment registers hold the constants of `F` (R172). -/
abbrev State.FragmentsLoaded (s : State) : Prop :=
  s.dp.frag0 = (Datapath.reset s.params.sysClkHz).frag0 ∧ s.dp.frag1 = (Datapath.reset s.params.sysClkHz).frag1 ∧
    s.dp.frag2 = (Datapath.reset s.params.sysClkHz).frag2 ∧ s.dp.frag3 = (Datapath.reset s.params.sysClkHz).frag3

/-- The four faults that no sequence can raise (R157–R160). -/
abbrev State.NoInternalFault (s : State) : Prop :=
  FaultName.rxEmptyRead ∉ s.faults ∧ FaultName.syncViolation ∉ s.faults ∧
    FaultName.resetAccess ∉ s.faults ∧ FaultName.protectedWrite ∉ s.faults

/-- The fault set is in its canonical form. -/
abbrev State.FaultsCanonical (s : State) : Prop := ∃ held : FaultName → Bool, s.faults = FaultName.all.filter held

/-- The invariant of the block: it holds at reset and every step keeps it. -/
structure State.Inv (s : State) : Prop where
  pins : s.PinsOwned
  sync : s.SyncAgree
  command : s.commandPhase s.cur s.sp
  isr : s.isrPhase s.isrSp
  fragments : s.FragmentsLoaded
  noInternalFault : s.NoInternalFault
  faultsCanonical : s.FaultsCanonical

end Sys2Proof.Machine
end

