-- ==== Sys2Proof/Certificates/Slice0/Obligations.lean ====
section
/-! DEFINITION. The statements for the provers. Each docstring names the rules of spec/ it formalises; OBLIGATIONS.json
lists them. -/

open Sys2Proof Sys2Proof.Machine

/-! ## Command words (30_encoding.md) -/

/-- R84–R88, R92: decoding the encoding of a command, on a port that may carry it, gives the command back, whatever its
operands are. -/
def Obligations.DecodeUndoesEncode : Prop :=
  ∀ (p : Port) (i : Instr), i.wellFormedOn p = true → decode p (encode i) = .ok i

/-- R84–R88, R92, R94: a word decodes only to a command its port may carry, and only the command's own encoding does. -/
def Obligations.EncodeUndoesDecode : Prop :=
  ∀ (p : Port) (w : Word40) (i : Instr), decode p w = .ok i → i.wellFormedOn p = true ∧ encode i = w

/-- R88: exactly the listed words are legal on each port, and accepting any other word records `F_ILLEGAL_CMD` and starts
no sequence (R153: nothing but `faults` and `log` changes). -/
def Obligations.LegalWords : Prop :=
  (∀ w : Word40, (∃ i, decode .mainline w = .ok i) ↔
    ((1 ≤ w.toNat % 16 ∧ w.toNat % 16 ≤ 6) ∧ w.extractLsb' 5 3 = 0 ∧
      (w.toNat % 16 ≠ 3 → w.getLsbD 4 = false) ∧
      (w.toNat % 16 = 5 ∨ w.toNat % 16 = 6 → w.extractLsb' 16 24 = 0) ∧
      (w.toNat % 16 = 1 ∨ w.toNat % 16 = 2 ∨ w.toNat % 16 = 4 → w.extractLsb' 8 32 = 0))) ∧
  (∀ w : Word40, (∃ i, decode .dispatch w = .ok i) ↔ w = 0x0000000007) ∧
  ∀ (p : Port) (w : Word40) (s : State), (∀ i, decode p w ≠ .ok i) →
    present p w s =
      .next { s with log := s.log ++ [.cmd w, .fault .illegalCmd], faults := addFault .illegalCmd s.faults }

/-- R85, R92: words written out from the spec's encodings (R98, R99, R102, R139–R142) decode to the commands they stand
for. A sanity statement. -/
def Obligations.SpecWordsDecode : Prop :=
  decode .mainline 0x0000000001 = .ok .claim ∧ decode .mainline 0x0000000002 = .ok .release ∧
  decode .mainline 0x0001C20013 = .ok (.config true 115200) ∧ decode .mainline 0x0000258013 = .ok (.config true 9600) ∧
  decode .mainline 0x0000000004 = .ok .rdyq ∧ decode .mainline 0x0000004805 = .ok (.wrnb 0x48) ∧
  decode .mainline 0x0000004106 = .ok (.wrblk 0x41) ∧ decode .dispatch 0x0000000007 = .ok .rxisr ∧
  decode .mainline 0x0000000007 = .error .rxisrOnMainline ∧ decode .dispatch 0x0000000001 = .error .notDispatchWord

/-! ## Running a command (10_state.md, 30_encoding.md, 60_exceptions.md) -/

/-- R10, R90, R91, R92, R163: a step runs the decoded command. The host's move presents the next word on a ready port, the
mainline agent's move runs the running command with the operands in the latches, and the ISR agent's move runs RXISR; the
move leaves the schedule. With a command's word of the opcode table placed, the very next step runs it (log entry 8). -/
def Obligations.StepRunsDecodedCommand : Prop :=
  (∀ (s : State) (w : Word40) (ws : List Word40) (i : Instr), s.params.sysClkHz ≠ 0 → s.nextMove = .host → s.idle →
    s.hostWords = w :: ws → decode .mainline w = .ok i →
      step s = exec i { s with sched := s.sched.tail, hostWords := ws }) ∧
  (∀ (s : State) (c : Cmd), s.params.sysClkHz ≠ 0 → s.nextMove = .mainline → s.cur = some c →
    step s = exec (s.runningInstr c) { s with sched := s.sched.tail }) ∧
  (∀ s : State, s.params.sysClkHz ≠ 0 → s.nextMove = .isr → step s = exec .rxisr { s with sched := s.sched.tail }) ∧
  ∀ (s : State) (nbits w : Nat) (i : Instr), s.params.sysClkHz ≠ 0 → decodeTableWord nbits w = some i →
    step (s.withFetchWord nbits w) =
      exec i { s.withFetchWord nbits w with sched := s.sched, hostWords := s.hostWords }

/-- R93, with R21 and R90: acceptance latches CONFIG's rate and flag, or the byte of WRNB or WRBLK, and nothing else; it
sets `cur`, `sp <- 0` and logs the word. -/
def Obligations.AcceptanceLatchesOperands : Prop :=
  ∀ s : State, s.idle →
    exec .claim s = .next { s with cur := some .claim, sp := 0, log := s.log ++ [.cmd 0x0000000001] } ∧
    exec .release s = .next { s with cur := some .release, sp := 0, log := s.log ++ [.cmd 0x0000000002] } ∧
    (∀ c r, exec (.config c r) s =
      .next { s with
        cur := some .config, sp := 0, cReg := c, rReg := r
        log := s.log ++ [.cmd (r ++ 0b000#3 ++ BitVec.ofBool c ++ 0x3#4)] }) ∧
    exec .rdyq s = .next { s with cur := some .rdyq, sp := 0, log := s.log ++ [.cmd 0x0000000004] } ∧
    (∀ b, exec (.wrnb b) s =
      .next { s with cur := some .wrnb, sp := 0, bReg := b, log := s.log ++ [.cmd (0#24 ++ b ++ 0x05#8)] }) ∧
    (∀ b, exec (.wrblk b) s =
      .next { s with cur := some .wrblk, sp := 0, bReg := b, log := s.log ++ [.cmd (0#24 ++ b ++ 0x06#8)] })

/-- R90, R163, and the model's choice of log entry 5: while the ISR runs no mainline command steps, a command other than
the running one is not accepted, and while the port is not ready the host's word waits. -/
def Obligations.BusyPortTakesNothing : Prop :=
  (∀ (s : State) (i : Instr), i ≠ .rxisr → s.isrSp ≠ none → exec i s = .next s) ∧
  (∀ (s : State) (i : Instr) (c d : Cmd), cmdOf i = some c → s.cur = some d → c ≠ d → exec i s = .next s) ∧
  (∀ s : State, ¬ s.idle → hostMove s = .next s)

/-- R20: `sp` never decreases while a command runs, and in every state that keeps the invariant it stays in 0..22. -/
def Obligations.SequencePointerNeverDecreases : Prop :=
  ∀ (s t : State) (c : Cmd), step s = .next t →
    (s.cur = some c → t.cur = some c → s.sp ≤ t.sp) ∧ (s.Inv → t.cur = some c → t.sp ≤ 22)

/-- D37, R163: `F = 0` is refused, and every state that keeps the invariant has a next state: no agent is ever stuck. That a
move whose guard does not hold answers the same state, and that a sequence pointer with no step stops, is the model's choice
(log entries 5 and 6). -/
def Obligations.EveryStepAnswers : Prop :=
  (∀ s : State, s.params.sysClkHz = 0 → step s = .refused .zeroClock) ∧
  ∀ s : State, s.params.sysClkHz ≠ 0 → s.Inv → ∃ t, step s = .next t

/-- R17, R164: when the run has ended (no further word, both agents idle, no engine step pending) and neither the schedule
nor the line holds anything, a step changes nothing, unless an interrupt is pending, whose dispatch it takes; and where the
run has not ended, or an interrupt is pending, an agent other than the line has a step. That the step of the empty schedule
(log entry 3) answers the same state (log entry 5), and that an ended run may still take a pending dispatch (log entry 16),
are the model's readings. -/
def Obligations.QuiescentRunEnds : Prop :=
  (∀ s : State, s.params.sysClkHz ≠ 0 → s.quiescent = true → s.sched = [] → s.lineBytes = [] →
    (s.dispatchReady = false → step s = .next s) ∧ (s.dispatchReady = true → step s = .next s.takeInterrupt)) ∧
  ∀ s : State, s.quiescent = false ∨ s.dispatchReady = true → ∃ m : Move, m ≠ .line ∧ m.enabled s = true

/-! ## The log, the faults and the parameters -/

/-- R28, R49, R151: a step appends entries to the log and records the fault of each `FAULT` entry among them, and does so
whatever the log and the fault set hold: no step reads either, nothing is ever removed from either, and a fault stops
no agent and changes nothing else. Both are empty at reset. -/
def Obligations.LogAndFaultsOnlyRecord : Prop :=
  (∀ p, (State.resetWith p).log = [] ∧ (State.resetWith p).faults = []) ∧
  ∀ s t : State, step s = .next t → ∃ es : List Event, ∀ (l : List Event) (fs : List FaultName),
    step { s with log := l, faults := fs } =
      .next { t with log := l ++ es, faults := recordFaults es fs }

/-- R123–R125, R172: the fragments loaded at reset are the constants of `F`, the slices of `Q = floor(2^62 / F)`; at 48 MHz
they are 89, 489, 992 and 242. No step changes one, nor the instance's parameters. -/
def Obligations.FragmentsLoadedOnce : Prop :=
  (∀ p : Params, p.sysClkHz ≠ 0 →
    (State.resetWith p).dp.frag0.toNat = 2 ^ 32 / p.sysClkHz.toNat ∧
    (State.resetWith p).dp.frag1.toNat = 2 ^ 42 / p.sysClkHz.toNat % 1024 ∧
    (State.resetWith p).dp.frag2.toNat = 2 ^ 52 / p.sysClkHz.toNat % 1024 ∧
    (State.resetWith p).dp.frag3.toNat = 2 ^ 62 / p.sysClkHz.toNat % 1024 ∧
    (State.resetWith p).dp = Datapath.reset p.sysClkHz) ∧
  (∀ f : BitVec 32, f ≠ 0 →
    (Datapath.reset f).frag0.toNat = (2 ^ 62 / f.toNat) >>> 30 ∧
    (Datapath.reset f).frag1.toNat = (2 ^ 62 / f.toNat) / 2 ^ 20 % 2 ^ 10 ∧
    (Datapath.reset f).frag2.toNat = (2 ^ 62 / f.toNat) / 2 ^ 10 % 2 ^ 10 ∧
    (Datapath.reset f).frag3.toNat = (2 ^ 62 / f.toNat) % 2 ^ 10 ∧
    2 ^ 62 / f.toNat =
      (Datapath.reset f).frag0.toNat * 2 ^ 30 + (Datapath.reset f).frag1.toNat * 2 ^ 20 +
        (Datapath.reset f).frag2.toNat * 2 ^ 10 + (Datapath.reset f).frag3.toNat) ∧
  (∀ p : Params, p.sysClkHz = 48000000 →
    (State.resetWith p).dp.frag0 = 89 ∧ (State.resetWith p).dp.frag1 = 489 ∧
    (State.resetWith p).dp.frag2 = 992 ∧ (State.resetWith p).dp.frag3 = 242) ∧
  ∀ s t : State, step s = .next t →
    t.params = s.params ∧ t.dp.frag0 = s.dp.frag0 ∧ t.dp.frag1 = s.dp.frag1 ∧
      t.dp.frag2 = s.dp.frag2 ∧ t.dp.frag3 = s.dp.frag3

/-! ## Reset (10_state.md section 6, 70_reset_and_hazards.md section 1) -/

/-- R51, R52, R171: what power-on reset leaves, for every instance, in the fields the spec gives a reset value; no agent
has a step, and once the host has words the host's is the only one. -/
def Obligations.ResetState : Prop :=
  ∀ p : Params,
    (State.resetWith p).cur = none ∧ (State.resetWith p).isrSp = none ∧ (State.resetWith p).seq = .disabled ∧
    (State.resetWith p).active = false ∧ (State.resetWith p).faults = [] ∧ (State.resetWith p).rsp = none ∧
    (State.resetWith p).log = [] ∧ (State.resetWith p).sp = 0 ∧
    (∃ rxData, (State.resetWith p).eng = Engine.resetWith rxData) ∧
    (State.resetWith p).plat.txPinFn = .gpio ∧ (State.resetWith p).plat.rxPinFn = .gpio ∧
    (State.resetWith p).plat.lineUnmasked = false ∧ (State.resetWith p).FragmentsLoaded ∧
    (State.resetWith p).eng.irqReq = false ∧
    (∀ m : Move, m.enabled (State.resetWith p) = false) ∧
    ∀ (ws : List Word40) (bs : List Byte) (m : Move),
      m.enabled { State.resetWith p with hostWords := ws, lineBytes := bs } = true → m = .host

/-- R74, R173: the two resets. The completion of an engine software reset gives every engine field its default and empties
the hidden state, sends nothing, and changes no UCB field and no platform field; `rx_data`, which R46 leaves unspecified,
takes a free value (log entry 4); with no reset pending the step does nothing, by the model's choice (log entry 5). A reset
of the UCB alone keeps the engine and, by the model's inference (log entry 13), the platform, and logs nothing, and a CONFIG accepted next whose engine is enabled goes on to disable it (R103). -/
def Obligations.TwoResets : Prop :=
  (∀ s : State,
    (s.eng.swrstPending = true →
      runMove .engSwrstDone s =
        .next { s with
          eng :=
            { ctrla := { mode := 0, dord := 0, txpo := 0, rxpo := 0, sampr := 0, runstdby := false, other := 0 }
              enableApplied := false
              baud := 0
              ctrlb := { chsize := 0, txen := false, rxen := false, other := 0 }
              intenRxc := false, rxc := false, syncEnable := false, syncCtrlb := false, swrstPending := false
              pendEnable := none, pendCtrlb := none, txHold := none
              rxData := Config.freeByte s.draws }
          draws := s.draws + 1 }) ∧
    (s.eng.swrstPending = false → runMove .engSwrstDone s = .next s)) ∧
  ∀ s : State,
    s.resetUcbOnly.eng = s.eng ∧ s.resetUcbOnly.plat = s.plat ∧ s.resetUcbOnly.log = [] ∧
    s.resetUcbOnly.cur = none ∧ s.resetUcbOnly.isrSp = none ∧ s.resetUcbOnly.seq = .disabled ∧
    s.resetUcbOnly.active = false ∧ s.resetUcbOnly.faults = [] ∧ s.resetUcbOnly.rsp = none ∧
    s.resetUcbOnly.params = s.params ∧
    (s.Quiet → s.eng.syncEnable = false → s.eng.enableApplied = true → ∀ c r, ∃ t,
      execTimes 3 (.config c r) s.resetUcbOnly = .next t ∧ t.standsAt .config 2 ∧ t.faults = [])

/-! ## Pins (40_pins.md) -/

/-- R98: CLAIM's steps, and the whole command from an idle port: both pins are routed to `UART_PIN_FN`, then `active` is
set, and the response is 0. Everything else is as before. -/
def Obligations.ClaimSequence : Prop :=
  ∀ s : State,
    (s.standsAt .claim 0 → exec .claim s =
      .next { s with
        plat := { s.plat with txPinFn := .alternate s.params.uartPinFn }, sp := 1
        log := s.log ++ [.cap (.pinmux s.params.txPin (.alternate s.params.uartPinFn))] }) ∧
    (s.standsAt .claim 1 → exec .claim s =
      .next { s with
        plat := { s.plat with rxPinFn := .alternate s.params.uartPinFn }, sp := 2
        log := s.log ++ [.cap (.pinmux s.params.rxPin (.alternate s.params.uartPinFn))] }) ∧
    (s.standsAt .claim 2 → exec .claim s =
      .next { s with active := true, rsp := some false, cur := none, log := s.log ++ [.rsp false] }) ∧
    (s.idle → execTimes 4 .claim s =
      .next { s with
        active := true, rsp := some false, sp := 2
        plat :=
          { s.plat with txPinFn := .alternate s.params.uartPinFn, rxPinFn := .alternate s.params.uartPinFn }
        log := s.log ++
          [.cmd 0x0000000001, .cap (.pinmux s.params.txPin (.alternate s.params.uartPinFn)),
           .cap (.pinmux s.params.rxPin (.alternate s.params.uartPinFn)), .rsp false] })

/-- R99: RELEASE's steps, and the whole command from an idle port: `active` is cleared, then both pins are general I/O,
and the response is 0. Everything else is as before: the engine is not disabled or reset, `seq` and the line stay. -/
def Obligations.ReleaseSequence : Prop :=
  ∀ s : State,
    (s.standsAt .release 0 → exec .release s = .next { s with active := false, sp := 1 }) ∧
    (s.standsAt .release 1 → exec .release s =
      .next { s with
        plat := { s.plat with txPinFn := .gpio }, sp := 2
        log := s.log ++ [.cap (.pinmux s.params.txPin .gpio)] }) ∧
    (s.standsAt .release 2 → exec .release s =
      .next { s with
        plat := { s.plat with rxPinFn := .gpio }, rsp := some false, cur := none
        log := s.log ++ [.cap (.pinmux s.params.rxPin .gpio), .rsp false] }) ∧
    (s.idle → execTimes 4 .release s =
      .next { s with
        active := false, rsp := some false, sp := 2
        plat := { s.plat with txPinFn := .gpio, rxPinFn := .gpio }
        log := s.log ++
          [.cmd 0x0000000002, .cap (.pinmux s.params.txPin .gpio), .cap (.pinmux s.params.rxPin .gpio),
           .rsp false] })

/-- R100: both pin round trips, from any state with an idle port, and neither records a fault. -/
def Obligations.PinRoundTrip : Prop :=
  ∀ s : State, s.idle →
    (∃ a b c, execTimes 4 .claim s = .next a ∧ execTimes 4 .release a = .next b ∧ execTimes 4 .claim b = .next c ∧
      c.active = true ∧ c.pinsAreUart ∧ c.faults = s.faults ∧ c.idle) ∧
    (∃ a b c, execTimes 4 .release s = .next a ∧ execTimes 4 .claim a = .next b ∧ execTimes 4 .release b = .next c ∧
      c.active = false ∧ c.plat.txPinFn = .gpio ∧ c.plat.rxPinFn = .gpio ∧ c.faults = s.faults ∧ c.idle)

/-- R23: CLAIM and CONFIG with `c_reg = 1` write `active` to 1, RELEASE writes it to 0, nothing else writes it, and its
reset value is 0. -/
def Obligations.ActiveFlagWriters : Prop :=
  (∀ p, (State.resetWith p).active = false) ∧
  (∀ s : State, s.standsAt .claim 2 → ∃ t, exec .claim s = .next t ∧ t.active = true) ∧
  (∀ s : State, s.standsAt .config 10 → ∃ t, exec (.config s.cReg s.rReg) s = .next t ∧ t.active = true) ∧
  (∀ s : State, s.standsAt .release 0 → ∃ t, exec .release s = .next t ∧ t.active = false) ∧
  ∀ s t : State, s.Inv → step s = .next t → t.active ≠ s.active →
    s.nextMove = .mainline ∧
      (t.active = true ∧ (s.standsAt .claim 2 ∨ s.standsAt .config 10 ∧ s.cReg = true) ∨
        t.active = false ∧ s.standsAt .release 0)

/-- R41, R48, R101, R119: pin state changes only in CLAIM, RELEASE and CONFIG steps S8 and S9; the clocks are turned on only
by S11 and S12 and the line unmasked only by S19, and none of the three is ever cleared; `INTEN.RXC` is set only by S18 and
cleared only by the completion of an engine software reset. -/
def Obligations.PlatformWriters : Prop :=
  ∀ s t : State, step s = .next t →
    (t.plat.txPinFn ≠ s.plat.txPinFn →
      s.nextMove = .mainline ∧ (s.standsAt .claim 0 ∨ s.standsAt .release 1 ∨ s.standsAt .config 8)) ∧
    (t.plat.rxPinFn ≠ s.plat.rxPinFn →
      s.nextMove = .mainline ∧ (s.standsAt .claim 1 ∨ s.standsAt .release 2 ∨ s.standsAt .config 9)) ∧
    (t.plat.busClkOn ≠ s.plat.busClkOn →
      t.plat.busClkOn = true ∧ s.nextMove = .mainline ∧ s.standsAt .config 11) ∧
    (t.plat.gclkRouted ≠ s.plat.gclkRouted →
      t.plat.gclkRouted = true ∧ s.nextMove = .mainline ∧ s.standsAt .config 12) ∧
    (t.plat.lineUnmasked ≠ s.plat.lineUnmasked →
      t.plat.lineUnmasked = true ∧ s.nextMove = .mainline ∧ s.standsAt .config 19) ∧
    (t.eng.intenRxc ≠ s.eng.intenRxc →
      t.eng.intenRxc = true ∧ s.nextMove = .mainline ∧ s.standsAt .config 18 ∨
        t.eng.intenRxc = false ∧ s.nextMove = .engSwrstDone ∧ s.eng.swrstPending = true)

/-- R82, R101: the engine and the line behave the same whatever the pins, the clocks, the line mask and `active` are; and
no move of any agent reads the clocks (R48). -/
def Obligations.EngineIgnoresPlatform : Prop :=
  (∀ (m : Move) (s : State) (pl : Platform) (a : Bool),
    m ∈ [.engSyncEnable, .engSyncCtrlb, .engSwrstDone, .engTx, .line] →
      ∃ t, runMove m s = .next t ∧ t.plat = s.plat ∧ t.active = s.active ∧
        runMove m { s with plat := pl, active := a } = .next { t with plat := pl, active := a }) ∧
  ∀ (m : Move) (s t : State) (b g : Bool), runMove m s = .next t →
    ∃ b' g', runMove m { s with plat := { s.plat with busClkOn := b, gclkRouted := g } } =
      .next { t with plat := { t.plat with busClkOn := b', gclkRouted := g' } }

/-! ## CONFIG (41_configure.md) -/

/-- R102–R108: S0 enters `Disabled` and reads the enable: the applied value, or a draw while its synchronisation is pending
(R67); S1 skips S2 and S3 when the engine is not enabled; S2, S4 and S6 make one read of `SYNCBUSY` a step and go on only
when neither CTRLA synchronisation is in progress (R44), S4 entering `Resetting`; S3 writes `ENABLE <- 0` and S5 writes
`SWRST <- 1`, each of which starts its synchronisation when none is in progress. -/
def Obligations.ConfigDisablesAndResets : Prop :=
  ∀ (s : State) (c : Bool) (r : BitVec 32),
    (s.standsAt .config 0 → s.eng.swrstPending = false → s.eng.syncEnable = false → exec (.config c r) s =
      .next { s with
        seq := .disabled, eTmp := s.eng.enableApplied, sp := 1
        log := s.log ++ [.rd (.ctrlaEnable s.eng.enableApplied)] }) ∧
    (s.standsAt .config 0 → s.eng.swrstPending = false → s.eng.syncEnable = true → exec (.config c r) s =
      .next { s with
        seq := .disabled, eTmp := Config.freeBit s.draws, sp := 1, draws := s.draws + 1
        log := s.log ++ [.rd (.ctrlaEnable (Config.freeBit s.draws))] }) ∧
    (s.standsAt .config 1 → exec (.config c r) s = .next { s with sp := if s.eTmp = true then 2 else 4 }) ∧
    (s.standsAt .config 2 → exec (.config c r) s =
      .next { s with
        sp := if s.eng.swrstPending = true ∨ s.eng.syncEnable = true then 2 else 3
        log := s.log ++ [.rd (.syncbusyReset s.eng.swrstPending s.eng.syncEnable)] }) ∧
    (s.standsAt .config 4 → exec (.config c r) s =
      .next { s with
        seq := .resetting
        sp := if s.eng.swrstPending = true ∨ s.eng.syncEnable = true then 4 else 5
        log := s.log ++ [.rd (.syncbusyReset s.eng.swrstPending s.eng.syncEnable)] }) ∧
    (s.standsAt .config 6 → exec (.config c r) s =
      .next { s with
        sp := if s.eng.swrstPending = true ∨ s.eng.syncEnable = true then 6 else 7
        log := s.log ++ [.rd (.syncbusyReset s.eng.swrstPending s.eng.syncEnable)] }) ∧
    (s.standsAt .config 3 → s.eng.swrstPending = false → s.eng.syncEnable = false → exec (.config c r) s =
      .next { s with
        eng := { s.eng with pendEnable := some false, syncEnable := true }, sp := 4
        log := s.log ++ [.wf (.ctrlaEnable false)] }) ∧
    (s.standsAt .config 5 → s.eng.swrstPending = false → s.eng.syncEnable = false → exec (.config c r) s =
      .next { s with
        eng := { s.eng with swrstPending := true }, sp := 6, log := s.log ++ [.wf (.ctrlaSwrst true)] })

/-- R109, R111–R113, R119: S7 enters `Configuring` and skips the pin steps when `c_reg = 0`; S8–S10 are CLAIM's steps; S11
enables the bus clock, S12 routes the generator, S19 unmasks the line. -/
def Obligations.ConfigClaimsAndRoutes : Prop :=
  ∀ (s : State) (c : Bool) (r : BitVec 32),
    (s.standsAt .config 7 → exec (.config c r) s =
      .next { s with seq := .configuring, sp := if s.cReg = true then 8 else 11 }) ∧
    (s.standsAt .config 8 → exec (.config c r) s =
      .next { s with
        plat := { s.plat with txPinFn := .alternate s.params.uartPinFn }, sp := 9
        log := s.log ++ [.cap (.pinmux s.params.txPin (.alternate s.params.uartPinFn))] }) ∧
    (s.standsAt .config 9 → exec (.config c r) s =
      .next { s with
        plat := { s.plat with rxPinFn := .alternate s.params.uartPinFn }, sp := 10
        log := s.log ++ [.cap (.pinmux s.params.rxPin (.alternate s.params.uartPinFn))] }) ∧
    (s.standsAt .config 10 → exec (.config c r) s = .next { s with active := true, sp := 11 }) ∧
    (s.standsAt .config 11 → exec (.config c r) s =
      .next { s with
        plat := { s.plat with busClkOn := true }, sp := 12
        log := s.log ++ [.cap (.enableBusClock s.params.busClockId)] }) ∧
    (s.standsAt .config 12 → exec (.config c r) s =
      .next { s with
        plat := { s.plat with gclkRouted := true }, sp := 13
        log := s.log ++ [.cap (.routeGenerator s.params.periphClockId s.params.gclkGenId)] }) ∧
    (s.standsAt .config 19 → exec (.config c r) s =
      .next { s with
        plat := { s.plat with lineUnmasked := true }, sp := 20
        log := s.log ++ [.cap (.unmask s.params.irqLine)] })

/-- R114–R117, R119: S13 writes mode and framing, S14 computes the divisor of the latched rate, S15 writes it to `BAUD`,
S16 starts the CTRLB write and S18 sets `INTEN.RXC`, of a disabled engine with nothing pending (where CONFIG is, R108). The
numeric encodings of S13 and S16 are those of R33–R37 and R40 (log entry 11). -/
def Obligations.ConfigProgramsEngine : Prop :=
  ∀ (s : State) (c : Bool) (r : BitVec 32), s.Off → s.eng.syncCtrlb = false →
    (s.standsAt .config 13 → exec (.config c r) s =
      .next { s with
        eng :=
          { s.eng with
            ctrla :=
              { mode := 1, dord := 1, txpo := s.params.txPad, rxpo := s.params.rxPad, sampr := 0
                runstdby := s.params.runInStandby, other := 0 } }
        sp := 14
        log := s.log ++
          [.wr (.ctrla
            { fields :=
                { mode := 1, dord := 1, txpo := s.params.txPad, rxpo := s.params.rxPad, sampr := 0
                  runstdby := s.params.runInStandby, other := 0 }
              enable := false, swrst := false })] }) ∧
    (s.standsAt .config 14 → exec (.config c r) s = .next { s with dp := s.dividedDatapath, sp := 15 } ∧
      (s.FragmentsLoaded → s.dividedDatapath.dReg = s.divisor)) ∧
    (s.standsAt .config 15 → exec (.config c r) s =
      .next { s with
        eng := { s.eng with baud := s.dp.dReg }, sp := 16, log := s.log ++ [.wr (.baud s.dp.dReg)] }) ∧
    (s.standsAt .config 16 → exec (.config c r) s =
      .next { s with
        eng :=
          { s.eng with
            pendCtrlb := some { chsize := 0, txen := true, rxen := true, other := 0 }, syncCtrlb := true }
        sp := 17
        log := s.log ++ [.wr (.ctrlb { chsize := 0, txen := true, rxen := true, other := 0 })] }) ∧
    (s.standsAt .config 18 → exec (.config c r) s =
      .next { s with
        eng := { s.eng with intenRxc := true }, sp := 19, log := s.log ++ [.wr (.intenset true)] })

/-- R118, R120: S17 waits for the CTRLB synchronisation, one read a step; S20 enters `Enabled` and writes `ENABLE <- 1`, which
starts its synchronisation when none is in progress; S21 waits for it; S22 answers. -/
def Obligations.ConfigEnablesAndAnswers : Prop :=
  ∀ (s : State) (c : Bool) (r : BitVec 32),
    (s.standsAt .config 17 → exec (.config c r) s =
      .next { s with
        sp := if s.eng.syncCtrlb = true then 17 else 18, log := s.log ++ [.rd (.syncbusyCtrlb s.eng.syncCtrlb)] }) ∧
    (s.standsAt .config 21 → exec (.config c r) s =
      .next { s with
        sp := if s.eng.syncEnable = true then 21 else 22
        log := s.log ++ [.rd (.syncbusyEnable s.eng.syncEnable)] }) ∧
    (s.standsAt .config 22 → exec (.config c r) s =
      .next { s with rsp := some false, cur := none, log := s.log ++ [.rsp false] }) ∧
    (s.standsAt .config 20 → s.eng.swrstPending = false → s.eng.syncEnable = false → exec (.config c r) s =
      .next { s with
        seq := .enabled, eng := { s.eng with pendEnable := some true, syncEnable := true }, sp := 21
        log := s.log ++ [.wf (.ctrlaEnable true)] })

/-- R102, R121: a whole CONFIG, from a state that keeps the invariant with an idle port, on the schedule that completes
each synchronisation right after the write that starts it: it answers, with its post-condition, its one reset trigger
and no new fault; with `c` the pins are claimed, without it they are as before. The numbers of CTRLA's and CTRLB's fields
are presumed (log entry 11). -/
def Obligations.ConfigRunCompletes : Prop :=
  ∀ (s : State) (c : Bool) (r : BitVec 32) (ws : List Word40) (ms : List Move),
    s.params.sysClkHz ≠ 0 → s.Inv → s.idle → s.hostWords = encode (.config c r) :: ws →
      s.sched = configMoves s.eng.enableApplied c ++ ms →
    ∃ t, Host.Core.run Sys2Proof.core (configMoves s.eng.enableApplied c).length s = .next t ∧
      t.idle ∧ t.hostWords = ws ∧ t.sched = ms ∧ t.rsp = some false ∧ t.seq = .enabled ∧ t.faults = s.faults ∧
      t.cReg = c ∧ t.rReg = r ∧
      t.eng.enableApplied = true ∧ t.Quiet ∧ t.eng.ctrla = (modeFraming s.params).fields ∧
      t.eng.baud = t.divisor ∧ t.eng.ctrlb = { chsize := 0, txen := true, rxen := true, other := 0 } ∧
      t.eng.intenRxc = true ∧ t.eng.rxc = false ∧ t.eng.txHold = none ∧
      t.plat.busClkOn = true ∧ t.plat.gclkRouted = true ∧ t.plat.lineUnmasked = true ∧
      (c = true → t.active = true ∧ t.pinsAreUart) ∧
      (c = false → t.active = s.active ∧ t.plat.txPinFn = s.plat.txPinFn ∧ t.plat.rxPinFn = s.plat.rxPinFn) ∧
      ∃ es, t.log = s.log ++ es ∧ es.count (.wf (.ctrlaSwrst true)) = 1 ∧ es.getLast? = some (.rsp false)

/-- R120, R121 item 1, R180: whatever the schedule, a CONFIG answers only when the engine is live: the step that ends it
leaves the enable synchronised and applied, the transmitter and receiver on, `BAUD` at the divisor of its rate, the
interrupt armed, `tx_hold` empty and DRE reading 1. -/
def Obligations.ConfigAnswersWhenLive : Prop :=
  ∀ s t : State, s.Inv → step s = .next t → s.cur = some .config → t.cur = none →
    t.log = s.log ++ [.rsp false] ∧ t.rsp = some false ∧ t.faults = s.faults ∧ t.seq = .enabled ∧
    t.eng.enableApplied = true ∧ t.eng.syncEnable = false ∧ t.eng.pendEnable = none ∧
    t.eng.ctrlb.txen = true ∧ t.eng.ctrlb.rxen = true ∧ t.eng.baud = t.divisor ∧
    t.eng.intenRxc = true ∧ t.plat.lineUnmasked = true ∧ t.eng.txHold = none ∧ t.readDre.1 = true ∧
    (t.cReg = true → t.active = true ∧ t.pinsAreUart)

/-- R107, R121 item 2: a CONFIG cannot pass S5 without writing the reset trigger: a step of a CONFIG at or before S5
either stays at or before S5, or is S5 and writes `SWRST <- 1`, which starts the reset. -/
def Obligations.ResetTriggerNeverSkipped : Prop :=
  ∀ s t : State, s.Inv → step s = .next t → s.cur = some .config → s.sp ≤ 5 →
    t.cur = some .config ∧
      (t.sp ≤ 5 ∨
        s.sp = 5 ∧ t.sp = 6 ∧ t.log = s.log ++ [.wf (.ctrlaSwrst true)] ∧ t.eng.swrstPending = true)

/-- R22: only CONFIG writes `seq`, at S0, S4, S7 and S20, with the values of those steps. -/
def Obligations.SeqWrittenOnlyByConfig : Prop :=
  ∀ s t : State, step s = .next t → t.seq ≠ s.seq →
    s.nextMove = .mainline ∧
      (s.standsAt .config 0 ∧ t.seq = .disabled ∨ s.standsAt .config 4 ∧ t.seq = .resetting ∨
        s.standsAt .config 7 ∧ t.seq = .configuring ∨ s.standsAt .config 20 ∧ t.seq = .enabled)

/-! ## The divisor (42_baud_divisor.md) -/

/-- R126–R130: the stages computed on unbounded naturals are what the registers of R26 hold, so no register truncates; the
result is `65535 - op1` modulo 2^16 on integers. -/
def Obligations.StagesExact : Prop :=
  ∀ f r : BitVec 32, f ≠ 0 →
    ((Datapath.reset f).run r).t3.toNat = (r.toNat * (Datapath.reset f).frag3.toNat) >>> 10 ∧
    r.toNat * (Datapath.reset f).frag3.toNat < 2 ^ 42 ∧ ((Datapath.reset f).run r).t3.toNat < 2 ^ 32 ∧
    ((Datapath.reset f).run r).t2.toNat =
      (r.toNat * (Datapath.reset f).frag2.toNat + ((Datapath.reset f).run r).t3.toNat) >>> 10 ∧
    ((Datapath.reset f).run r).t1.toNat =
      (r.toNat * (Datapath.reset f).frag1.toNat + ((Datapath.reset f).run r).t2.toNat) >>> 10 ∧
    ((Datapath.reset f).run r).op1.toNat =
      (r.toNat * (Datapath.reset f).frag0.toNat + ((Datapath.reset f).run r).t1.toNat) >>> 12 ∧
    ((baudDivisor f r).toNat : ℤ) = (65535 - (((Datapath.reset f).run r).op1.toNat : ℤ)) % 65536

/-- R133: the bounds that make a datapath with 64-bit products and sums exact. R133 writes `t1 < R`, which `R = 0` does
not meet; here it is stated for `R ≥ 1` (log entry 15). -/
def Obligations.DatapathNeverOverflows : Prop :=
  ∀ f r : BitVec 32, f ≠ 0 →
    (Datapath.reset f).frag0.toNat ≤ 2 ^ 32 ∧
    r.toNat * (Datapath.reset f).frag3.toNat < 2 ^ 42 ∧ r.toNat * (Datapath.reset f).frag2.toNat < 2 ^ 42 ∧
    r.toNat * (Datapath.reset f).frag1.toNat < 2 ^ 42 ∧
    ((Datapath.reset f).run r).t3.toNat < 2 ^ 32 ∧
    (1 ≤ r.toNat → ((Datapath.reset f).run r).t1.toNat < r.toNat) ∧
    r.toNat * (Datapath.reset f).frag0.toNat + ((Datapath.reset f).run r).t1.toNat < 2 ^ 64

/-- R131: `op1 = floor(R * Q / 2^42)` with `Q = floor(2^62 / F)`. -/
def Obligations.ClosedForm : Prop :=
  ∀ f r : BitVec 32, f ≠ 0 →
    ((Datapath.reset f).run r).op1.toNat = r.toNat * (2 ^ 62 / f.toNat) / 2 ^ 42

/-- R132: no rate is checked or clamped; the values outside the domain, and step S14 takes every rate. -/
def Obligations.DivisorWraps : Prop :=
  (∀ f : BitVec 32, f ≠ 0 → ((Datapath.reset f).run 0).op1 = 0 ∧ baudDivisor f 0 = 65535) ∧
  (∀ f r : BitVec 32, f ≠ 0 → 65535 < ((Datapath.reset f).run r).op1.toNat →
    ((baudDivisor f r).toNat : ℤ) = (65535 - (((Datapath.reset f).run r).op1.toNat : ℤ)) % 2 ^ 16) ∧
  (((Datapath.reset 48000000).run 3000001).op1 = 65536 ∧ baudDivisor 48000000 3000001 = 65535 ∧
    ((Datapath.reset 48000000).run 6000000).op1 = 131071 ∧ baudDivisor 48000000 6000000 = 0) ∧
  (∀ f r : BitVec 32, f ≠ 0 → 16 * r.toNat = f.toNat → (∀ k, f.toNat ≠ 2 ^ k) →
    ((Datapath.reset f).run r).op1 = 65535 ∧ baudDivisor f r = 0) ∧
  ∀ s : State, s.standsAt .config 14 → ∃ t, exec (.config s.cReg s.rReg) s = .next t ∧ t.faults = s.faults

/-- R135: with `x = R * 2^20 / F` and `δ = R * (2^62 mod F) / (F * 2^42)`, `op1 = floor(x - δ)`, and the three cases.
R135 writes `δ < R / 2^42`, which `R = 0` does not meet; here it is stated for `R ≥ 1` (log entry 15). -/
def Obligations.AccuracyCases : Prop :=
  ∀ (f r : BitVec 32) (x δ : ℚ), f ≠ 0 → x = r.toNat * 2 ^ 20 / f.toNat →
    δ = r.toNat * ((2 ^ 62 % f.toNat : ℕ) : ℚ) / (f.toNat * 2 ^ 42) →
    0 ≤ δ ∧ (1 ≤ r.toNat → δ < r.toNat / 2 ^ 42) ∧ (r.toNat : ℚ) / 2 ^ 42 < 1 / 2 ^ 10 ∧
    (((Datapath.reset f).run r).op1.toNat : ℤ) = ⌊x - δ⌋ ∧
    (δ = 0 ↔ r = 0 ∨ ∃ k, f.toNat = 2 ^ k) ∧
    (δ = 0 → (((Datapath.reset f).run r).op1.toNat : ℤ) = ⌊x⌋) ∧
    (0 < δ → 0 < Int.fract x → Int.fract x < δ → (((Datapath.reset f).run r).op1.toNat : ℤ) = ⌈x⌉ - 2) ∧
    (0 < δ → Int.fract x = 0 ∨ δ ≤ Int.fract x →
      (((Datapath.reset f).run r).op1.toNat : ℤ) = ⌈x⌉ - 1 ∧
      ((baudDivisor f r).toNat : ℤ) = (65536 - ⌈x⌉) % 65536)

/-- R136: at 48 MHz and at each clock R136 lists, `BaudDivisor(R) = 65536 - ceil(R * 2^20 / F)` for every `R` with `1 ≤ R`
and `16 * R < F`. -/
def Obligations.ExactAtListedClocks : Prop :=
  ∀ f r : BitVec 32,
    f ∈ [48000000, 1000000, 2000000, 3686400, 4000000, 7372800, 8000000, 11059200, 12000000, 14745600, 16000000,
      18432000, 20000000, 24000000, 32000000, 36000000, 40000000, 46000000, 47999999] →
    1 ≤ r.toNat → 16 * r.toNat < f.toNat →
      ((baudDivisor f r).toNat : ℤ) = 65536 - ⌈(r.toNat * 2 ^ 20 : ℚ) / f.toNat⌉

/-- R138: the alternative divisor is the clamped rounding of the quotient; it agrees with the datapath at `R = 0`, and in
case (c) of R135 when the quotient is an integer or its fraction is at least 1/2. R138 says "exactly when"; only this
direction holds in general (log entry 15). In `REFERENCE_ROUND` mode S14 computes it. -/
def Obligations.ReferenceDivisor : Prop :=
  (∀ f r : BitVec 32, f ≠ 0 →
    ((referenceDivisor f r).toNat : ℤ) =
      min 65535 (max 0 (65536 - ⌊(r.toNat * 2 ^ 20 : ℚ) / f.toNat + 1 / 2⌋))) ∧
  (∀ f : BitVec 32, f ≠ 0 → referenceDivisor f 0 = 65535 ∧ baudDivisor f 0 = 65535) ∧
  (∀ (f r : BitVec 32) (x : ℚ), f ≠ 0 → 1 ≤ r.toNat → 16 * r.toNat ≤ f.toNat → x = r.toNat * 2 ^ 20 / f.toNat →
    (((Datapath.reset f).run r).op1.toNat : ℤ) = ⌈x⌉ - 1 → Int.fract x = 0 ∨ 1 / 2 ≤ Int.fract x →
      referenceDivisor f r = baudDivisor f r) ∧
  (referenceDivisor 48000000 19200 = 65117 ∧ baudDivisor 48000000 19200 = 65116) ∧
  ∀ s : State, s.standsAt .config 14 → s.params.divisorMode = .referenceRound → ∃ t,
    exec (.config s.cReg s.rReg) s = .next t ∧ t.dp.dReg = referenceDivisor s.params.sysClkHz s.rReg

/-! ## Byte exchange (43_byte_exchange.md) -/

/-- R42, R139: RDYQ answers the DRE bit it reads: whether `tx_hold` is empty while the transmitter is on, and otherwise a
fresh draw, whichever it is (log entry 4). No flag is written. -/
def Obligations.RdyqAnswersDre : Prop :=
  ∀ s : State, s.eng.swrstPending = false →
    (s.standsAt .rdyq 0 → s.eng.enableApplied = true → s.eng.syncEnable = false → s.eng.ctrlb.txen = true →
      exec .rdyq s =
        .next { s with
          qTmp := s.eng.txHold.isNone, rsp := some s.eng.txHold.isNone, cur := none
          log := s.log ++ [.rd (.intflagDre s.eng.txHold.isNone), .rsp s.eng.txHold.isNone] }) ∧
    (s.standsAt .rdyq 0 → ¬ (s.eng.enableApplied = true ∧ s.eng.syncEnable = false ∧ s.eng.ctrlb.txen = true) →
      exec .rdyq s =
        .next { s with
          qTmp := Config.freeBit s.draws, rsp := some (Config.freeBit s.draws), cur := none, draws := s.draws + 1
          log := s.log ++ [.rd (.intflagDre (Config.freeBit s.draws)), .rsp (Config.freeBit s.draws)] }) ∧
    (s.idle → s.TxReady → execTimes 2 .rdyq s =
      .next { s with
        qTmp := true, rsp := some true, sp := 0
        log := s.log ++ [.cmd 0x0000000004, .rd (.intflagDre true), .rsp true] })

/-- R76, R140, R161: WRNB writes its byte unchecked and answers 0 in every case: with the transmitter off the write is
ignored with `F_TX_DISABLED`, with `tx_hold` full it is ignored with `F_TX_OVERRUN`, and otherwise it fills `tx_hold`. -/
def Obligations.WrnbWrites : Prop :=
  ∀ (s : State) (b : Byte), s.eng.swrstPending = false → s.standsAt .wrnb 0 →
    (s.eng.transmitterOn = false → exec (.wrnb b) s =
      .next { s with
        faults := addFault .txDisabled s.faults, rsp := some false, cur := none
        log := s.log ++ [.wr (.data s.bReg), .fault .txDisabled, .rsp false] }) ∧
    (s.eng.transmitterOn = true → s.eng.txHold ≠ none → exec (.wrnb b) s =
      .next { s with
        faults := addFault .txOverrun s.faults, rsp := some false, cur := none
        log := s.log ++ [.wr (.data s.bReg), .fault .txOverrun, .rsp false] }) ∧
    (s.eng.transmitterOn = true → s.eng.txHold = none → exec (.wrnb b) s =
      .next { s with
        eng := { s.eng with txHold := some s.bReg }, rsp := some false, cur := none
        log := s.log ++ [.wr (.data s.bReg), .rsp false] })

/-- R141: WRBLK's B0 makes one read a step and goes on when it gives 1; B1 writes the byte and answers 0, with WRNB's faults.
If the transmitter holds DRE at 0 for `n` reads and then drains, the log holds exactly `n` reads of 0, the drain, one
read of 1, the `DATA` write and the response. -/
def Obligations.WrblkPollsThenWrites : Prop :=
  (∀ (s : State) (b : Byte), s.eng.swrstPending = false →
    (s.standsAt .wrblk 0 → s.eng.transmitterOn = true → exec (.wrblk b) s =
      .next { s with
        qTmp := s.eng.txHold.isNone, sp := if s.eng.txHold = none then 1 else 0
        log := s.log ++ [.rd (.intflagDre s.eng.txHold.isNone)] }) ∧
    (s.standsAt .wrblk 0 → s.eng.transmitterOn = false → exec (.wrblk b) s =
      .next { s with
        qTmp := Config.freeBit s.draws, sp := if Config.freeBit s.draws = true then 1 else 0, draws := s.draws + 1
        log := s.log ++ [.rd (.intflagDre (Config.freeBit s.draws))] }) ∧
    (s.standsAt .wrblk 1 → s.eng.transmitterOn = true → s.eng.txHold = none → exec (.wrblk b) s =
      .next { s with
        eng := { s.eng with txHold := some s.bReg }, rsp := some false, cur := none
        log := s.log ++ [.wr (.data s.bReg), .rsp false] }) ∧
    (s.standsAt .wrblk 1 → s.eng.transmitterOn = false → exec (.wrblk b) s =
      .next { s with
        faults := addFault .txDisabled s.faults, rsp := some false, cur := none
        log := s.log ++ [.wr (.data s.bReg), .fault .txDisabled, .rsp false] }) ∧
    (s.standsAt .wrblk 1 → s.eng.transmitterOn = true → s.eng.txHold ≠ none → exec (.wrblk b) s =
      .next { s with
        faults := addFault .txOverrun s.faults, rsp := some false, cur := none
        log := s.log ++ [.wr (.data s.bReg), .fault .txOverrun, .rsp false] })) ∧
  ∀ (s : State) (b prev : Byte) (n : Nat), s.eng.swrstPending = false → s.eng.transmitterOn = true →
    s.eng.txHold = some prev → s.standsAt .wrblk 0 → s.bReg = b →
    ∃ t u, execTimes n (.wrblk b) s = .next t ∧ execTimes 2 (.wrblk b) t.engTx = .next u ∧
      u.log = s.log ++ List.replicate n (.rd (.intflagDre false)) ++
        [.wireTx prev, .rd (.intflagDre true), .wr (.data b), .rsp false] ∧
      u.cur = none ∧ u.rsp = some false ∧ u.eng = { s.eng with txHold := some b } ∧ u.faults = s.faults

/-- R97: against a transmitter in any condition, one host round `rdyq` makes the same transactions as one poll of a
`wrblk`, and once ready the `wrnb` makes the same as the `wrblk`'s write: same engine, same draws, same entries but for
`CMD` and `RSP`, same answer. -/
def Obligations.WrblkExpansion : Prop :=
  ∀ (s u : State) (b : Byte), s.idle → u.standsAt .wrblk 0 → u.bReg = b → s.eng.swrstPending = false →
    SameTransactions s u →
    ∃ s' u', execTimes 2 .rdyq s = .next s' ∧ exec (.wrblk b) u = .next u' ∧ s'.idle ∧ SameTransactions s' u' ∧
      (s'.rsp = some false ∧ u'.standsAt .wrblk 0 ∧ u'.bReg = b ∨
        s'.rsp = some true ∧ ∃ s'' u'', execTimes 2 (.wrnb b) s' = .next s'' ∧ exec (.wrblk b) u' = .next u'' ∧
          s''.idle ∧ u''.idle ∧ SameTransactions s'' u'' ∧ s''.rsp = u''.rsp ∧ s''.eng = u''.eng)

/-- R147, R182: an RDYQ of an engine that is on answers 1 only in a state where a write is safe; and from there to the
completion of the next mainline command `wrnb b`, whatever the other agents do, no step raises a transmit fault, and the
write is accepted. -/
def Obligations.WriteAfterReadyIsSafe : Prop :=
  (∀ s t : State, s.Quiet → s.eng.syncEnable = false → s.eng.enableApplied = true → s.eng.ctrlb.txen = true →
    s.standsAt .rdyq 0 → exec .rdyq s = .next t → t.rsp = some true → t.cur = none ∧ t.TxReady) ∧
  ∀ (s t : State) (b : Byte), s.Inv → s.AwaitingWrite b → step s = .next t →
    (t.AwaitingWrite b ∧ (FaultName.txOverrun ∈ t.faults ↔ FaultName.txOverrun ∈ s.faults) ∧
        (FaultName.txDisabled ∈ t.faults ↔ FaultName.txDisabled ∈ s.faults)) ∨
      t.cur = none ∧ t.eng.txHold = some b ∧ t.faults = s.faults ∧ t.log = s.log ++ [.wr (.data b), .rsp false]

/-- R148: WRBLK terminates when the transmitter is on. Under weak fairness, whatever the other agents do (the ISR may run
between its reads, R149), a running WRBLK completes: it answers 0 and its byte is in `tx_hold`, with the write its last
transaction. The schedule's fairness is a premise (log entry 3). -/
def Obligations.WrblkTerminates : Prop :=
  ∀ (σ : Nat → Move) (s : State), s.Inv → WeaklyFair σ s → s.cur = some .wrblk → s.eng.transmitterOn = true →
    ∃ n t, runUnder σ s n = .next t ∧ t.cur = none ∧ t.rsp = some false ∧ t.eng.txHold = some s.bReg ∧
      ∃ es, t.log = es ++ [.wr (.data s.bReg), .rsp false]

/-- R142: RXISR's steps from dispatch to return, and the whole run: one status read, one `DATA` read, which clears
`INTFLAG.RXC`, one delivery, no response. With `RXC = 0` at I0 it returns without reading `DATA`. The delivery may leave the host's own
state, which is none of the block's, at any value; RxisrFrame says at which. -/
def Obligations.RxisrSequence : Prop :=
  ∀ s : State,
    (s.isrSp = some .i0 → s.eng.swrstPending = false → s.eng.rxc = true → exec .rxisr s =
      .next { s with isrF := true, isrSp := some .i1, log := s.log ++ [.rd (.intflagRxc true)] }) ∧
    (s.isrSp = some .i0 → s.eng.swrstPending = false → s.eng.rxc = false → exec .rxisr s =
      .next { s with isrF := false, isrSp := none, log := s.log ++ [.rd (.intflagRxc false)] }) ∧
    (s.isrSp = some .i1 → s.eng.swrstPending = false → s.eng.rxc = true → exec .rxisr s =
      .next { s with
        eng := { s.eng with rxc := false }, isrByte := s.eng.rxData, isrSp := some .i2
        log := s.log ++ [.rd (.data s.eng.rxData)] }) ∧
    (s.isrSp = some .i2 → ∃ host, exec .rxisr s =
      .next { s with
        isrSp := none, hostState := host
        log := s.log ++ [.deliver s.isrByte] }) ∧
    (s.dispatchReady = true → ∃ host, execTimes 4 .rxisr s =
      .next { s with
        eng := { s.eng with rxc := false }, isrF := true, isrByte := s.eng.rxData
        hostState := host
        log := s.log ++
          [.cmd 0x0000000007, .rd (.intflagRxc true), .rd (.data s.eng.rxData), .deliver s.eng.rxData] })

/-- R47, R91, R164–R166: dispatch happens exactly when the byte is waiting, the source enabled, no engine reset pending,
the line unmasked and the ISR idle; it logs the word, starts at I0 and changes nothing else. Otherwise an idle ISR agent
has no step, and `exec` answers the same state by the model's choice (log entry 5). -/
def Obligations.InterruptEntry : Prop :=
  ∀ s : State, s.isrSp = none →
    (s.eng.rxc = true → s.eng.intenRxc = true → s.eng.swrstPending = false → s.plat.lineUnmasked = true →
      exec .rxisr s = .next { s with isrSp := some .i0, log := s.log ++ [.cmd 0x0000000007] }) ∧
    (¬ (s.eng.rxc = true ∧ s.eng.intenRxc = true ∧ s.eng.swrstPending = false ∧ s.plat.lineUnmasked = true) →
      exec .rxisr s = .next s)

/-- R143, R157: in a state that keeps the invariant the ISR takes its main path, whatever the other agents do between its
steps: a dispatch finds `RXC = 1`, only step I1 and the completion of an engine reset outside the ISR clear it, I0 reads 1,
I1 reads the waiting byte, and no step of it raises a fault. -/
def Obligations.RxisrTakesMainPath : Prop :=
  ∀ s : State, s.Inv →
    (s.isrSp = some .i0 → ∃ t, exec .rxisr s = .next t ∧ t.isrSp = some .i1 ∧ t.isrF = true ∧ t.faults = s.faults) ∧
    (s.isrSp = some .i1 → ∃ t, exec .rxisr s = .next t ∧ t.isrSp = some .i2 ∧ t.isrByte = s.eng.rxData ∧
      t.eng.rxc = false ∧ t.faults = s.faults) ∧
    ∀ t : State, step s = .next t →
      (s.isrSp = none → t.isrSp ≠ none → s.eng.rxc = true ∧ t.isrSp = some .i0 ∧ t.eng.rxc = true) ∧
      (s.eng.rxc = true → t.eng.rxc = false →
        s.nextMove = .isr ∧ s.isrSp = some .i1 ∨
          s.nextMove = .engSwrstDone ∧ s.eng.swrstPending = true ∧ s.isrSp = none) ∧
      (s.isrSp = some .i0 → s.nextMove ≠ .isr → t.isrSp = some .i0 ∧ t.eng.rxc = true)

/-- R144, R164: the read of step I1 lowers the interrupt request; `INTFLAG.RXC` rises again only by an arrival of the line,
and while it is 0 there is no request and no dispatch happens. -/
def Obligations.NoRequestWithoutArrival : Prop :=
  (∀ s t : State, step s = .next t → s.eng.rxc = false →
    (t.eng.rxc = true → s.nextMove = .line ∧ ∃ b, t.log = s.log ++ [.wireRx b] ∧ t.eng.rxData = b) ∧
    (s.isrSp = none → t.isrSp = none)) ∧
  (∀ s : State, s.eng.rxc = false → s.eng.irqReq = false) ∧
  ∀ s t : State, s.isrSp = some .i1 → exec .rxisr s = .next t → t.eng.irqReq = false

/-- R145: every received byte is delivered exactly once and in order, or still waits. Every step keeps this, from every
state that keeps the invariant, unless a second byte arrives while one waits (`F_RX_OVERFLOW`) or an engine reset drops
the waiting one (R121 item 4). Where each byte arrives with `INTFLAG.RXC = 0`, as R145 supposes, every step also keeps that
each `WIRE_RX` is followed by its `DELIVER` before the next `WIRE_RX`, but for an arrival while the ISR stands at I2. Both
hold at reset. That one arrival R79 allows and R167 item 5 names: with `INTEN.RXC = 1` and the line unmasked it is stored
without a fault, I2 delivers the earlier byte, and the next dispatch delivers it, so its `WIRE_RX` stands before both
`DELIVER` entries (log entry 15). -/
def Obligations.ExactlyOnceDelivery : Prop :=
  (∀ p, (State.resetWith p).ReceivedInOrder ∧ DeliveredBeforeNext (State.resetWith p).log) ∧
  (∀ s t : State, s.Inv → s.ReceivedInOrder → step s = .next t →
    (FaultName.rxOverflow ∉ t.faults →
      ¬ (s.nextMove = .engSwrstDone ∧ s.eng.swrstPending = true ∧ s.eng.rxc = true) → t.ReceivedInOrder) ∧
    (DeliveredBeforeNext s.log → (s.nextMove = .line → s.eng.rxc = false ∧ s.isrSp ≠ some .i2) →
      DeliveredBeforeNext t.log)) ∧
  ∀ (s : State) (b : Byte) (rest : List Byte), s.isrSp = some .i2 → s.eng.rxc = false → s.eng.rxReady = true →
    s.eng.intenRxc = true → s.plat.lineUnmasked = true → s.lineBytes = b :: rest →
    ∃ t u, runMove .line s = .next t ∧ execTimes 5 .rxisr t = .next u ∧ u.isrSp = none ∧ u.faults = s.faults ∧
      u.log = s.log ++ [.wireRx b, .deliver s.isrByte, .cmd 0x0000000007, .rd (.intflagRxc true), .rd (.data b), .deliver b]

/-- R149: a complete RXISR run and one step of RDYQ, WRNB or WRBLK commute: run in either order they end in the same state
but for where their entries fall in `log`. -/
def Obligations.IsrCommutesWithByteExchange : Prop :=
  ∀ (s u : State) (i : Instr) (b : Byte), i = .rdyq ∨ i = .wrnb b ∨ i = .wrblk b → s.dispatchReady = true →
    exec i s = .next u →
    ∃ (isrFirst isrLast t : State) (mainlineEntries isrEntries : List Event),
      execTimes 4 .rxisr s = .next t ∧ exec i t = .next isrFirst ∧ execTimes 4 .rxisr u = .next isrLast ∧
      u.log = s.log ++ mainlineEntries ∧ t.log = s.log ++ isrEntries ∧
      isrFirst.log = s.log ++ isrEntries ++ mainlineEntries ∧
      isrLast = { isrFirst with log := s.log ++ mainlineEntries ++ isrEntries }

/-! ## Frames -/

/-- R98, R99, R102: what one step of CLAIM or RELEASE leaves unchanged: everything but the pins, `active`, the running
command and its pointer, the response and the log. One step of CONFIG leaves the byte operand and the DRE latch, the ISR
agent, the fragments, the parameters and the environment, and of the engine the received byte, its flag, the holding
register and the two applied values: those change only on the engine's own steps. -/
def Obligations.PinAndConfigFrames : Prop :=
  (∀ (s t : State) (i : Instr), i = .claim ∨ i = .release → exec i s = .next t →
    t = { s with
      cur := t.cur, sp := t.sp, active := t.active, rsp := t.rsp, log := t.log
      plat := { s.plat with txPinFn := t.plat.txPinFn, rxPinFn := t.plat.rxPinFn } }) ∧
  ∀ (s t : State) (c : Bool) (r : BitVec 32), exec (.config c r) s = .next t →
    t = { s with
      cur := t.cur, sp := t.sp, seq := t.seq, active := t.active, rReg := t.rReg, cReg := t.cReg, eTmp := t.eTmp
      rsp := t.rsp, eng := t.eng, plat := t.plat, faults := t.faults, log := t.log, draws := t.draws
      dp := { s.dp with t3 := t.dp.t3, t2 := t.dp.t2, t1 := t.dp.t1, op1 := t.dp.op1, dReg := t.dp.dReg } } ∧
    t.eng.rxc = s.eng.rxc ∧ t.eng.rxData = s.eng.rxData ∧ t.eng.txHold = s.eng.txHold ∧
      t.eng.enableApplied = s.eng.enableApplied ∧ t.eng.ctrlb = s.eng.ctrlb

/-- R150: a step of RDYQ, WRNB or WRBLK never changes `seq`, `active`, the pins, the clocks, the line mask, `BAUD`, CTRLA or
CTRLB, nor anything else but the holding register, its own latches, the response, faults, the log and the draws. -/
def Obligations.ByteExchangeFrame : Prop :=
  ∀ (s t : State) (i : Instr) (b : Byte), i = .rdyq ∨ i = .wrnb b ∨ i = .wrblk b → exec i s = .next t →
    t = { s with
      cur := t.cur, sp := t.sp, bReg := t.bReg, qTmp := t.qTmp, rsp := t.rsp, faults := t.faults, log := t.log
      draws := t.draws, eng := { s.eng with txHold := t.eng.txHold } } ∧
    (i = .rdyq → t.bReg = s.bReg ∧ t.eng = s.eng)

/-- R142, R146, R165, R166: a step of RXISR writes no mainline state: `cur`, `sp`, `rsp` and the latches stay, and so does
everything but the ISR's own state, `INTFLAG.RXC`, faults, the log, the draws and the host's own state. That last changes
only at I2, where the bound callback is invoked with the byte, and not with the default callback; that it is a field is the
model's choice (log entry 9). -/
def Obligations.RxisrFrame : Prop :=
  ∀ s t : State, exec .rxisr s = .next t →
    t = { s with
      isrSp := t.isrSp, isrF := t.isrF, isrByte := t.isrByte, eng := { s.eng with rxc := t.eng.rxc }
      faults := t.faults, log := t.log, draws := t.draws, hostState := t.hostState } ∧
    (t.eng.rxc = true → s.eng.rxc = true) ∧
    (s.isrSp = some .i2 → t.hostState = invokeCallback s.params.callback s.isrByte s.hostState) ∧
    (s.isrSp ≠ some .i2 ∨ s.params.callback = .noop → t.hostState = s.hostState)

/-! ## The engine's transactions and steps (20_memory.md) -/

/-- R68–R70, R72, R161: the synchronised writes. Outside an engine reset (R80 comes first) each sets its busy bit and its
pending value, or is ignored with a fault when a synchronisation it conflicts with is in progress. A whole write of CTRLA
to a disabled engine with nothing pending sets its seven plain fields at once; its `ENABLE = 0` and `SWRST = 0` start
nothing, `ENABLE = 1` starts its synchronisation, `SWRST = 1` with `ENABLE = 0` starts the reset and no enable
synchronisation: each bit judged on its own is the model's reading of R70 (log entry 14). With both bits 1 the second
conflicts with the synchronisation of the first, and the write is ignored whole, its fields too, with its one fault. -/
def Obligations.SynchronisedWrites : Prop :=
  ∀ (s : State) (v : Bool) (c : Ctrlb) (f : Ctrla), s.eng.swrstPending = false →
    (s.eng.syncEnable = false → s.writeEnable v =
      { s with
        eng := { s.eng with pendEnable := some v, syncEnable := true }, log := s.log ++ [.wf (.ctrlaEnable v)] }) ∧
    (s.eng.syncEnable = true → s.writeEnable v = s.ignoredAccess (.wf (.ctrlaEnable v)) .syncViolation) ∧
    (s.eng.syncEnable = false → s.writeSwrst true =
      { s with eng := { s.eng with swrstPending := true }, log := s.log ++ [.wf (.ctrlaSwrst true)] }) ∧
    (s.eng.syncEnable = true → s.writeSwrst true = s.ignoredAccess (.wf (.ctrlaSwrst true)) .syncViolation) ∧
    s.writeSwrst false = { s with log := s.log ++ [.wf (.ctrlaSwrst false)] } ∧
    (s.eng.enableApplied = false → s.eng.pendEnable = none →
      (s.eng.syncCtrlb = false → s.writeCtrlb c =
        { s with
          eng := { s.eng with pendCtrlb := some c, syncCtrlb := true }, log := s.log ++ [.wr (.ctrlb c)] }) ∧
      (s.eng.syncCtrlb = true → s.writeCtrlb c = s.ignoredAccess (.wr (.ctrlb c)) .syncViolation) ∧
      s.writeCtrla { fields := f, enable := false, swrst := false } =
        { s with
          eng := { s.eng with ctrla := f }
          log := s.log ++ [.wr (.ctrla { fields := f, enable := false, swrst := false })] } ∧
      (s.eng.syncEnable = false →
        s.writeCtrla { fields := f, enable := true, swrst := false } =
          { s with
            eng := { s.eng with ctrla := f, pendEnable := some true, syncEnable := true }
            log := s.log ++ [.wr (.ctrla { fields := f, enable := true, swrst := false })] } ∧
        s.writeCtrla { fields := f, enable := false, swrst := true } =
          { s with
            eng := { s.eng with ctrla := f, swrstPending := true }
            log := s.log ++ [.wr (.ctrla { fields := f, enable := false, swrst := true })] }) ∧
      s.writeCtrla { fields := f, enable := true, swrst := true } =
        s.ignoredAccess (.wr (.ctrla { fields := f, enable := true, swrst := true })) .syncViolation)

/-- R73: the completion steps apply the pending value and clear the busy bit; a disable that finds a byte in `tx_hold`
sends it or not, as a draw decides, and discards it; with nothing pending the steps do nothing (log entry 5). -/
def Obligations.SynchronisationCompletes : Prop :=
  ∀ (s : State) (v : Bool) (c : Ctrlb) (b : Byte),
    (s.eng.pendEnable = some v → v = true ∨ s.eng.txHold = none → runMove .engSyncEnable s =
      .next { s with eng := { s.eng with enableApplied := v, pendEnable := none, syncEnable := false } }) ∧
    (s.eng.pendEnable = some false → s.eng.txHold = some b → runMove .engSyncEnable s =
      .next { s with
        eng := { s.eng with enableApplied := false, pendEnable := none, syncEnable := false, txHold := none }
        draws := s.draws + 1
        log := s.log ++ if Config.freeBit s.draws = true then [.wireTx b] else [] }) ∧
    (s.eng.pendCtrlb = some c → runMove .engSyncCtrlb s =
      .next { s with eng := { s.eng with ctrlb := c, pendCtrlb := none, syncCtrlb := false } }) ∧
    (s.eng.pendEnable = none → runMove .engSyncEnable s = .next s) ∧
    (s.eng.pendCtrlb = none → runMove .engSyncCtrlb s = .next s)

/-- R73, R74, R78, R163: under weak fairness every pending synchronisation, every engine reset and every waiting byte of a
transmitter that is on is eventually completed, whatever the other agents do. The schedule's fairness is a premise. -/
def Obligations.FairEngineCompletes : Prop :=
  ∀ (σ : Nat → Move) (s : State), s.Inv → WeaklyFair σ s →
    (s.eng.pendEnable.isSome = true → ∃ n t, runUnder σ s n = .next t ∧ t.eng.pendEnable = none) ∧
    (s.eng.pendCtrlb.isSome = true → ∃ n t, runUnder σ s n = .next t ∧ t.eng.pendCtrlb = none) ∧
    (s.eng.swrstPending = true → ∃ n t, runUnder σ s n = .next t ∧ t.eng.swrstPending = false) ∧
    (s.eng.txHold.isSome = true → s.eng.enableApplied = true → s.eng.ctrlb.txen = true →
      ∃ n t, runUnder σ s n = .next t ∧ (t.eng.txHold = none ∨ t.eng.enableApplied = false))

/-- R71, R75, R77: `BAUD` takes its value at once; an INTENSET write sets `INTEN.RXC` for a 1 bit and changes nothing for a
0; a `DATA` read returns the waiting byte and clears `INTFLAG.RXC`, and with none waiting it faults and returns a draw. -/
def Obligations.UnsynchronisedTransactions : Prop :=
  ∀ (s : State) (d : BitVec 16), s.eng.swrstPending = false →
    (s.eng.enableApplied = false → s.eng.pendEnable = none → s.writeBaud d =
      { s with eng := { s.eng with baud := d }, log := s.log ++ [.wr (.baud d)] }) ∧
    s.writeIntenset true =
      { s with eng := { s.eng with intenRxc := true }, log := s.log ++ [.wr (.intenset true)] } ∧
    s.writeIntenset false = { s with log := s.log ++ [.wr (.intenset false)] } ∧
    (s.eng.rxc = true → s.readData =
      (s.eng.rxData,
        { s with eng := { s.eng with rxc := false }, log := s.log ++ [.rd (.data s.eng.rxData)] })) ∧
    (s.eng.rxc = false → s.readData =
      (Config.freeByte s.draws,
        { s with
          draws := s.draws + 1, faults := addFault .rxEmptyRead s.faults
          log := s.log ++ [.rd (.data (Config.freeByte s.draws)), .fault .rxEmptyRead] }))

/-- R78, R79, R156: the transmit drain sends the byte of `tx_hold` and empties it, exactly when the applied enable and `TXEN`
are 1. While the receiver is on and no engine reset is pending the line's next byte arrives: it is stored and sets
`INTFLAG.RXC`, or, with an earlier byte unread, it is lost and `F_RX_OVERFLOW` is recorded; otherwise the line has no
step. That a drain or an arrival that may not happen answers the same state is the model's choice (log entry 5). -/
def Obligations.LineTraffic : Prop :=
  (∀ (s : State) (b : Byte),
    (s.eng.enableApplied = true → s.eng.ctrlb.txen = true → s.eng.txHold = some b → runMove .engTx s =
      .next { s with eng := { s.eng with txHold := none }, log := s.log ++ [.wireTx b] }) ∧
    (¬ (s.eng.enableApplied = true ∧ s.eng.ctrlb.txen = true ∧ s.eng.txHold.isSome = true) →
      runMove .engTx s = .next s)) ∧
  ∀ (s : State) (b : Byte) (bs : List Byte), s.lineBytes = b :: bs →
    (s.eng.enableApplied = true → s.eng.ctrlb.rxen = true → s.eng.swrstPending = false → s.eng.rxc = false →
      runMove .line s =
        .next { s with
          eng := { s.eng with rxData := b, rxc := true }, lineBytes := bs, log := s.log ++ [.wireRx b] }) ∧
    (s.eng.enableApplied = true → s.eng.ctrlb.rxen = true → s.eng.swrstPending = false → s.eng.rxc = true →
      runMove .line s =
        .next { s with
          faults := addFault .rxOverflow s.faults, lineBytes := bs
          log := s.log ++ [.wireRx b, .fault .rxOverflow] }) ∧
    (¬ (s.eng.enableApplied = true ∧ s.eng.ctrlb.rxen = true ∧ s.eng.swrstPending = false) →
      runMove .line s = .next s)

/-- R80, R81, R161: during an engine reset every register transaction but a `SYNCBUSY` read raises `F_RESET_ACCESS`: a write
is ignored and a read returns a draw; the `SYNCBUSY` reads stay legal. Otherwise a whole write of CTRLA, BAUD or CTRLB
while the engine is enabled or an enable value is pending is ignored with `F_PROTECTED_WRITE`. -/
def Obligations.IgnoredAccesses : Prop :=
  ∀ s : State,
    (s.eng.swrstPending = true →
      (∀ v, s.writeEnable v = s.ignoredAccess (.wf (.ctrlaEnable v)) .resetAccess) ∧
      (∀ v, s.writeSwrst v = s.ignoredAccess (.wf (.ctrlaSwrst v)) .resetAccess) ∧
      (∀ w, s.writeCtrla w = s.ignoredAccess (.wr (.ctrla w)) .resetAccess) ∧
      (∀ d, s.writeBaud d = s.ignoredAccess (.wr (.baud d)) .resetAccess) ∧
      (∀ c, s.writeCtrlb c = s.ignoredAccess (.wr (.ctrlb c)) .resetAccess) ∧
      (∀ v, s.writeIntenset v = s.ignoredAccess (.wr (.intenset v)) .resetAccess) ∧
      (∀ b, s.writeData b = s.ignoredAccess (.wr (.data b)) .resetAccess) ∧
      (∀ v, v = Config.freeBit s.draws →
        s.readEnable = (v, { s with draws := s.draws + 1 }.ignoredAccess (.rd (.ctrlaEnable v)) .resetAccess) ∧
        s.readDre = (v, { s with draws := s.draws + 1 }.ignoredAccess (.rd (.intflagDre v)) .resetAccess) ∧
        s.readRxc = (v, { s with draws := s.draws + 1 }.ignoredAccess (.rd (.intflagRxc v)) .resetAccess)) ∧
      (∀ b, b = Config.freeByte s.draws →
        s.readData = (b, { s with draws := s.draws + 1 }.ignoredAccess (.rd (.data b)) .resetAccess)) ∧
      s.readNotBusy.2 = s.emit (.rd (.syncbusyReset true s.eng.syncEnable)) ∧
      s.readSyncCtrlb.2 = s.emit (.rd (.syncbusyCtrlb s.eng.syncCtrlb)) ∧
      s.readSyncEnable.2 = s.emit (.rd (.syncbusyEnable s.eng.syncEnable))) ∧
    (s.eng.swrstPending = false → s.eng.enableApplied = true ∨ s.eng.pendEnable ≠ none →
      (∀ w, s.writeCtrla w = s.ignoredAccess (.wr (.ctrla w)) .protectedWrite) ∧
      (∀ d, s.writeBaud d = s.ignoredAccess (.wr (.baud d)) .protectedWrite) ∧
      ∀ c, s.writeCtrlb c = s.ignoredAccess (.wr (.ctrlb c)) .protectedWrite)

/-! ## The invariant -/

/-- The invariant holds after power-on reset of every instance, whatever the environment is about to do. -/
def Obligations.InvariantHoldsAtReset : Prop :=
  ∀ (p : Params) (ws : List Word40) (bs : List Byte) (ms : List Move),
    { State.resetWith p with hostWords := ws, lineBytes := bs, sched := ms }.Inv

/-- R24, R28, R44, R103–R121, R143, R157–R160, R172: every step keeps the invariant (Safety.lean), from every state that
has it, whichever agent moves: `active = 1` only with both pins routed; a busy bit exactly while its synchronisation is
pending; at each step of each command what the sequence has established so far; a byte waiting while the ISR is at I0 or
I1; the fragments; the four unreachable faults unrecorded; the fault set canonical. -/
def Obligations.StepKeepsInvariant : Prop :=
  ∀ s t : State, s.Inv → step s = .next t → t.Inv

/-- R24, R157–R160: whatever the host presents, the line delivers and the scheduler picks, no run from reset reaches a
state with `active = 1` and a pin not routed to the UART, or records one of the four unreachable faults, or stops. That it
never stops rests on the model's choices of log entries 5 and 6. -/
def Obligations.RunsFromResetAreSafe : Prop :=
  ∀ (p : Params) (ws : List Word40) (bs : List Byte) (ms : List Move) (k : Nat), p.sysClkHz ≠ 0 →
    ∃ t, Host.Core.run Sys2Proof.core k
        { State.resetWith p with hostWords := ws, lineBytes := bs, sched := ms } = .next t ∧
      (t.active = true → t.pinsAreUart) ∧ t.NoInternalFault

/-- R147, R163: under the invariant and whatever the agents do, a transmit fault is recorded only by the `DATA` write of
WRNB, or of WRBLK while the transmitter is off; an illegal word only by the host's move; an overflow only by the line's. -/
def Obligations.FaultSources : Prop :=
  ∀ s t : State, s.Inv → step s = .next t →
    (FaultName.txOverrun ∈ t.faults → FaultName.txOverrun ∉ s.faults → s.nextMove = .mainline ∧ s.standsAt .wrnb 0) ∧
    (FaultName.txDisabled ∈ t.faults → FaultName.txDisabled ∉ s.faults →
      s.nextMove = .mainline ∧ (s.standsAt .wrnb 0 ∨ s.standsAt .wrblk 1) ∧ s.eng.transmitterOn = false) ∧
    (FaultName.illegalCmd ∈ t.faults → FaultName.illegalCmd ∉ s.faults →
      s.nextMove = .host ∧ ∃ w e, s.hostWords.head? = some w ∧ decode .mainline w = .error e) ∧
    (FaultName.rxOverflow ∈ t.faults → FaultName.rxOverflow ∉ s.faults → s.nextMove = .line ∧ s.eng.rxc = true)
end

