-- ==== Sys2Proof/Laws/State.lean ====
section
/-! SUPPORT. One lemma per field per update of the state, true by `rfl`: no later proof unfolds a record update. -/

namespace Sys2Proof.Machine

variable (s : State)

/-! `emit` -/

@[simp] theorem emit_params (e : Event) : (s.emit e).params = s.params := rfl
@[simp] theorem emit_cur (e : Event) : (s.emit e).cur = s.cur := rfl
@[simp] theorem emit_sp (e : Event) : (s.emit e).sp = s.sp := rfl
@[simp] theorem emit_seq (e : Event) : (s.emit e).seq = s.seq := rfl
@[simp] theorem emit_active (e : Event) : (s.emit e).active = s.active := rfl
@[simp] theorem emit_rReg (e : Event) : (s.emit e).rReg = s.rReg := rfl
@[simp] theorem emit_cReg (e : Event) : (s.emit e).cReg = s.cReg := rfl
@[simp] theorem emit_bReg (e : Event) : (s.emit e).bReg = s.bReg := rfl
@[simp] theorem emit_eTmp (e : Event) : (s.emit e).eTmp = s.eTmp := rfl
@[simp] theorem emit_qTmp (e : Event) : (s.emit e).qTmp = s.qTmp := rfl
@[simp] theorem emit_dp (e : Event) : (s.emit e).dp = s.dp := rfl
@[simp] theorem emit_isrSp (e : Event) : (s.emit e).isrSp = s.isrSp := rfl
@[simp] theorem emit_isrF (e : Event) : (s.emit e).isrF = s.isrF := rfl
@[simp] theorem emit_isrByte (e : Event) : (s.emit e).isrByte = s.isrByte := rfl
@[simp] theorem emit_faults (e : Event) : (s.emit e).faults = s.faults := rfl
@[simp] theorem emit_rsp (e : Event) : (s.emit e).rsp = s.rsp := rfl
@[simp] theorem emit_eng (e : Event) : (s.emit e).eng = s.eng := rfl
@[simp] theorem emit_plat (e : Event) : (s.emit e).plat = s.plat := rfl
@[simp] theorem emit_log (e : Event) : (s.emit e).log = s.log ++ [e] := rfl
@[simp] theorem emit_hostWords (e : Event) : (s.emit e).hostWords = s.hostWords := rfl
@[simp] theorem emit_lineBytes (e : Event) : (s.emit e).lineBytes = s.lineBytes := rfl
@[simp] theorem emit_sched (e : Event) : (s.emit e).sched = s.sched := rfl
@[simp] theorem emit_draws (e : Event) : (s.emit e).draws = s.draws := rfl
@[simp] theorem emit_hostState (e : Event) : (s.emit e).hostState = s.hostState := rfl

/-! `raiseFault` -/

@[simp] theorem raiseFault_params (n : FaultName) : (s.raiseFault n).params = s.params := rfl
@[simp] theorem raiseFault_cur (n : FaultName) : (s.raiseFault n).cur = s.cur := rfl
@[simp] theorem raiseFault_sp (n : FaultName) : (s.raiseFault n).sp = s.sp := rfl
@[simp] theorem raiseFault_seq (n : FaultName) : (s.raiseFault n).seq = s.seq := rfl
@[simp] theorem raiseFault_active (n : FaultName) : (s.raiseFault n).active = s.active := rfl
@[simp] theorem raiseFault_rReg (n : FaultName) : (s.raiseFault n).rReg = s.rReg := rfl
@[simp] theorem raiseFault_cReg (n : FaultName) : (s.raiseFault n).cReg = s.cReg := rfl
@[simp] theorem raiseFault_bReg (n : FaultName) : (s.raiseFault n).bReg = s.bReg := rfl
@[simp] theorem raiseFault_eTmp (n : FaultName) : (s.raiseFault n).eTmp = s.eTmp := rfl
@[simp] theorem raiseFault_qTmp (n : FaultName) : (s.raiseFault n).qTmp = s.qTmp := rfl
@[simp] theorem raiseFault_dp (n : FaultName) : (s.raiseFault n).dp = s.dp := rfl
@[simp] theorem raiseFault_isrSp (n : FaultName) : (s.raiseFault n).isrSp = s.isrSp := rfl
@[simp] theorem raiseFault_isrF (n : FaultName) : (s.raiseFault n).isrF = s.isrF := rfl
@[simp] theorem raiseFault_isrByte (n : FaultName) : (s.raiseFault n).isrByte = s.isrByte := rfl
@[simp] theorem raiseFault_faults (n : FaultName) : (s.raiseFault n).faults = addFault n s.faults := rfl
@[simp] theorem raiseFault_rsp (n : FaultName) : (s.raiseFault n).rsp = s.rsp := rfl
@[simp] theorem raiseFault_eng (n : FaultName) : (s.raiseFault n).eng = s.eng := rfl
@[simp] theorem raiseFault_plat (n : FaultName) : (s.raiseFault n).plat = s.plat := rfl
@[simp] theorem raiseFault_log (n : FaultName) : (s.raiseFault n).log = s.log ++ [.fault n] := rfl
@[simp] theorem raiseFault_hostWords (n : FaultName) : (s.raiseFault n).hostWords = s.hostWords := rfl
@[simp] theorem raiseFault_lineBytes (n : FaultName) : (s.raiseFault n).lineBytes = s.lineBytes := rfl
@[simp] theorem raiseFault_sched (n : FaultName) : (s.raiseFault n).sched = s.sched := rfl
@[simp] theorem raiseFault_draws (n : FaultName) : (s.raiseFault n).draws = s.draws := rfl
@[simp] theorem raiseFault_hostState (n : FaultName) : (s.raiseFault n).hostState = s.hostState := rfl

/-! `drawBit` -/

@[simp] theorem drawBit_params : (s.drawBit.2).params = s.params := rfl
@[simp] theorem drawBit_cur : (s.drawBit.2).cur = s.cur := rfl
@[simp] theorem drawBit_sp : (s.drawBit.2).sp = s.sp := rfl
@[simp] theorem drawBit_seq : (s.drawBit.2).seq = s.seq := rfl
@[simp] theorem drawBit_active : (s.drawBit.2).active = s.active := rfl
@[simp] theorem drawBit_rReg : (s.drawBit.2).rReg = s.rReg := rfl
@[simp] theorem drawBit_cReg : (s.drawBit.2).cReg = s.cReg := rfl
@[simp] theorem drawBit_bReg : (s.drawBit.2).bReg = s.bReg := rfl
@[simp] theorem drawBit_eTmp : (s.drawBit.2).eTmp = s.eTmp := rfl
@[simp] theorem drawBit_qTmp : (s.drawBit.2).qTmp = s.qTmp := rfl
@[simp] theorem drawBit_dp : (s.drawBit.2).dp = s.dp := rfl
@[simp] theorem drawBit_isrSp : (s.drawBit.2).isrSp = s.isrSp := rfl
@[simp] theorem drawBit_isrF : (s.drawBit.2).isrF = s.isrF := rfl
@[simp] theorem drawBit_isrByte : (s.drawBit.2).isrByte = s.isrByte := rfl
@[simp] theorem drawBit_faults : (s.drawBit.2).faults = s.faults := rfl
@[simp] theorem drawBit_rsp : (s.drawBit.2).rsp = s.rsp := rfl
@[simp] theorem drawBit_eng : (s.drawBit.2).eng = s.eng := rfl
@[simp] theorem drawBit_plat : (s.drawBit.2).plat = s.plat := rfl
@[simp] theorem drawBit_log : (s.drawBit.2).log = s.log := rfl
@[simp] theorem drawBit_hostWords : (s.drawBit.2).hostWords = s.hostWords := rfl
@[simp] theorem drawBit_lineBytes : (s.drawBit.2).lineBytes = s.lineBytes := rfl
@[simp] theorem drawBit_sched : (s.drawBit.2).sched = s.sched := rfl
@[simp] theorem drawBit_draws : (s.drawBit.2).draws = s.draws + 1 := rfl
@[simp] theorem drawBit_hostState : (s.drawBit.2).hostState = s.hostState := rfl

/-! `drawByte` -/

@[simp] theorem drawByte_params : (s.drawByte.2).params = s.params := rfl
@[simp] theorem drawByte_cur : (s.drawByte.2).cur = s.cur := rfl
@[simp] theorem drawByte_sp : (s.drawByte.2).sp = s.sp := rfl
@[simp] theorem drawByte_seq : (s.drawByte.2).seq = s.seq := rfl
@[simp] theorem drawByte_active : (s.drawByte.2).active = s.active := rfl
@[simp] theorem drawByte_rReg : (s.drawByte.2).rReg = s.rReg := rfl
@[simp] theorem drawByte_cReg : (s.drawByte.2).cReg = s.cReg := rfl
@[simp] theorem drawByte_bReg : (s.drawByte.2).bReg = s.bReg := rfl
@[simp] theorem drawByte_eTmp : (s.drawByte.2).eTmp = s.eTmp := rfl
@[simp] theorem drawByte_qTmp : (s.drawByte.2).qTmp = s.qTmp := rfl
@[simp] theorem drawByte_dp : (s.drawByte.2).dp = s.dp := rfl
@[simp] theorem drawByte_isrSp : (s.drawByte.2).isrSp = s.isrSp := rfl
@[simp] theorem drawByte_isrF : (s.drawByte.2).isrF = s.isrF := rfl
@[simp] theorem drawByte_isrByte : (s.drawByte.2).isrByte = s.isrByte := rfl
@[simp] theorem drawByte_faults : (s.drawByte.2).faults = s.faults := rfl
@[simp] theorem drawByte_rsp : (s.drawByte.2).rsp = s.rsp := rfl
@[simp] theorem drawByte_eng : (s.drawByte.2).eng = s.eng := rfl
@[simp] theorem drawByte_plat : (s.drawByte.2).plat = s.plat := rfl
@[simp] theorem drawByte_log : (s.drawByte.2).log = s.log := rfl
@[simp] theorem drawByte_hostWords : (s.drawByte.2).hostWords = s.hostWords := rfl
@[simp] theorem drawByte_lineBytes : (s.drawByte.2).lineBytes = s.lineBytes := rfl
@[simp] theorem drawByte_sched : (s.drawByte.2).sched = s.sched := rfl
@[simp] theorem drawByte_draws : (s.drawByte.2).draws = s.draws + 1 := rfl
@[simp] theorem drawByte_hostState : (s.drawByte.2).hostState = s.hostState := rfl

/-! `gotoStep` -/

@[simp] theorem gotoStep_params (n : Nat) : (s.gotoStep n).params = s.params := rfl
@[simp] theorem gotoStep_cur (n : Nat) : (s.gotoStep n).cur = s.cur := rfl
@[simp] theorem gotoStep_sp (n : Nat) : (s.gotoStep n).sp = n := rfl
@[simp] theorem gotoStep_seq (n : Nat) : (s.gotoStep n).seq = s.seq := rfl
@[simp] theorem gotoStep_active (n : Nat) : (s.gotoStep n).active = s.active := rfl
@[simp] theorem gotoStep_rReg (n : Nat) : (s.gotoStep n).rReg = s.rReg := rfl
@[simp] theorem gotoStep_cReg (n : Nat) : (s.gotoStep n).cReg = s.cReg := rfl
@[simp] theorem gotoStep_bReg (n : Nat) : (s.gotoStep n).bReg = s.bReg := rfl
@[simp] theorem gotoStep_eTmp (n : Nat) : (s.gotoStep n).eTmp = s.eTmp := rfl
@[simp] theorem gotoStep_qTmp (n : Nat) : (s.gotoStep n).qTmp = s.qTmp := rfl
@[simp] theorem gotoStep_dp (n : Nat) : (s.gotoStep n).dp = s.dp := rfl
@[simp] theorem gotoStep_isrSp (n : Nat) : (s.gotoStep n).isrSp = s.isrSp := rfl
@[simp] theorem gotoStep_isrF (n : Nat) : (s.gotoStep n).isrF = s.isrF := rfl
@[simp] theorem gotoStep_isrByte (n : Nat) : (s.gotoStep n).isrByte = s.isrByte := rfl
@[simp] theorem gotoStep_faults (n : Nat) : (s.gotoStep n).faults = s.faults := rfl
@[simp] theorem gotoStep_rsp (n : Nat) : (s.gotoStep n).rsp = s.rsp := rfl
@[simp] theorem gotoStep_eng (n : Nat) : (s.gotoStep n).eng = s.eng := rfl
@[simp] theorem gotoStep_plat (n : Nat) : (s.gotoStep n).plat = s.plat := rfl
@[simp] theorem gotoStep_log (n : Nat) : (s.gotoStep n).log = s.log := rfl
@[simp] theorem gotoStep_hostWords (n : Nat) : (s.gotoStep n).hostWords = s.hostWords := rfl
@[simp] theorem gotoStep_lineBytes (n : Nat) : (s.gotoStep n).lineBytes = s.lineBytes := rfl
@[simp] theorem gotoStep_sched (n : Nat) : (s.gotoStep n).sched = s.sched := rfl
@[simp] theorem gotoStep_draws (n : Nat) : (s.gotoStep n).draws = s.draws := rfl
@[simp] theorem gotoStep_hostState (n : Nat) : (s.gotoStep n).hostState = s.hostState := rfl

/-! `complete` -/

@[simp] theorem complete_params (v : Bool) : (s.complete v).params = s.params := rfl
@[simp] theorem complete_cur (v : Bool) : (s.complete v).cur = none := rfl
@[simp] theorem complete_sp (v : Bool) : (s.complete v).sp = s.sp := rfl
@[simp] theorem complete_seq (v : Bool) : (s.complete v).seq = s.seq := rfl
@[simp] theorem complete_active (v : Bool) : (s.complete v).active = s.active := rfl
@[simp] theorem complete_rReg (v : Bool) : (s.complete v).rReg = s.rReg := rfl
@[simp] theorem complete_cReg (v : Bool) : (s.complete v).cReg = s.cReg := rfl
@[simp] theorem complete_bReg (v : Bool) : (s.complete v).bReg = s.bReg := rfl
@[simp] theorem complete_eTmp (v : Bool) : (s.complete v).eTmp = s.eTmp := rfl
@[simp] theorem complete_qTmp (v : Bool) : (s.complete v).qTmp = s.qTmp := rfl
@[simp] theorem complete_dp (v : Bool) : (s.complete v).dp = s.dp := rfl
@[simp] theorem complete_isrSp (v : Bool) : (s.complete v).isrSp = s.isrSp := rfl
@[simp] theorem complete_isrF (v : Bool) : (s.complete v).isrF = s.isrF := rfl
@[simp] theorem complete_isrByte (v : Bool) : (s.complete v).isrByte = s.isrByte := rfl
@[simp] theorem complete_faults (v : Bool) : (s.complete v).faults = s.faults := rfl
@[simp] theorem complete_rsp (v : Bool) : (s.complete v).rsp = some v := rfl
@[simp] theorem complete_eng (v : Bool) : (s.complete v).eng = s.eng := rfl
@[simp] theorem complete_plat (v : Bool) : (s.complete v).plat = s.plat := rfl
@[simp] theorem complete_log (v : Bool) : (s.complete v).log = s.log ++ [.rsp v] := rfl
@[simp] theorem complete_hostWords (v : Bool) : (s.complete v).hostWords = s.hostWords := rfl
@[simp] theorem complete_lineBytes (v : Bool) : (s.complete v).lineBytes = s.lineBytes := rfl
@[simp] theorem complete_sched (v : Bool) : (s.complete v).sched = s.sched := rfl
@[simp] theorem complete_draws (v : Bool) : (s.complete v).draws = s.draws := rfl
@[simp] theorem complete_hostState (v : Bool) : (s.complete v).hostState = s.hostState := rfl

/-! `takeInterrupt` -/

@[simp] theorem takeInterrupt_params : (s.takeInterrupt).params = s.params := rfl
@[simp] theorem takeInterrupt_cur : (s.takeInterrupt).cur = s.cur := rfl
@[simp] theorem takeInterrupt_sp : (s.takeInterrupt).sp = s.sp := rfl
@[simp] theorem takeInterrupt_seq : (s.takeInterrupt).seq = s.seq := rfl
@[simp] theorem takeInterrupt_active : (s.takeInterrupt).active = s.active := rfl
@[simp] theorem takeInterrupt_rReg : (s.takeInterrupt).rReg = s.rReg := rfl
@[simp] theorem takeInterrupt_cReg : (s.takeInterrupt).cReg = s.cReg := rfl
@[simp] theorem takeInterrupt_bReg : (s.takeInterrupt).bReg = s.bReg := rfl
@[simp] theorem takeInterrupt_eTmp : (s.takeInterrupt).eTmp = s.eTmp := rfl
@[simp] theorem takeInterrupt_qTmp : (s.takeInterrupt).qTmp = s.qTmp := rfl
@[simp] theorem takeInterrupt_dp : (s.takeInterrupt).dp = s.dp := rfl
@[simp] theorem takeInterrupt_isrSp : (s.takeInterrupt).isrSp = some .i0 := rfl
@[simp] theorem takeInterrupt_isrF : (s.takeInterrupt).isrF = s.isrF := rfl
@[simp] theorem takeInterrupt_isrByte : (s.takeInterrupt).isrByte = s.isrByte := rfl
@[simp] theorem takeInterrupt_faults : (s.takeInterrupt).faults = s.faults := rfl
@[simp] theorem takeInterrupt_rsp : (s.takeInterrupt).rsp = s.rsp := rfl
@[simp] theorem takeInterrupt_eng : (s.takeInterrupt).eng = s.eng := rfl
@[simp] theorem takeInterrupt_plat : (s.takeInterrupt).plat = s.plat := rfl
@[simp] theorem takeInterrupt_log : (s.takeInterrupt).log = s.log ++ [.cmd rxisrWord] := rfl
@[simp] theorem takeInterrupt_hostWords : (s.takeInterrupt).hostWords = s.hostWords := rfl
@[simp] theorem takeInterrupt_lineBytes : (s.takeInterrupt).lineBytes = s.lineBytes := rfl
@[simp] theorem takeInterrupt_sched : (s.takeInterrupt).sched = s.sched := rfl
@[simp] theorem takeInterrupt_draws : (s.takeInterrupt).draws = s.draws := rfl
@[simp] theorem takeInterrupt_hostState : (s.takeInterrupt).hostState = s.hostState := rfl

/-! `returnFromInterrupt` -/

@[simp] theorem returnFromInterrupt_params : (s.returnFromInterrupt).params = s.params := rfl
@[simp] theorem returnFromInterrupt_cur : (s.returnFromInterrupt).cur = s.cur := rfl
@[simp] theorem returnFromInterrupt_sp : (s.returnFromInterrupt).sp = s.sp := rfl
@[simp] theorem returnFromInterrupt_seq : (s.returnFromInterrupt).seq = s.seq := rfl
@[simp] theorem returnFromInterrupt_active : (s.returnFromInterrupt).active = s.active := rfl
@[simp] theorem returnFromInterrupt_rReg : (s.returnFromInterrupt).rReg = s.rReg := rfl
@[simp] theorem returnFromInterrupt_cReg : (s.returnFromInterrupt).cReg = s.cReg := rfl
@[simp] theorem returnFromInterrupt_bReg : (s.returnFromInterrupt).bReg = s.bReg := rfl
@[simp] theorem returnFromInterrupt_eTmp : (s.returnFromInterrupt).eTmp = s.eTmp := rfl
@[simp] theorem returnFromInterrupt_qTmp : (s.returnFromInterrupt).qTmp = s.qTmp := rfl
@[simp] theorem returnFromInterrupt_dp : (s.returnFromInterrupt).dp = s.dp := rfl
@[simp] theorem returnFromInterrupt_isrSp : (s.returnFromInterrupt).isrSp = none := rfl
@[simp] theorem returnFromInterrupt_isrF : (s.returnFromInterrupt).isrF = s.isrF := rfl
@[simp] theorem returnFromInterrupt_isrByte : (s.returnFromInterrupt).isrByte = s.isrByte := rfl
@[simp] theorem returnFromInterrupt_faults : (s.returnFromInterrupt).faults = s.faults := rfl
@[simp] theorem returnFromInterrupt_rsp : (s.returnFromInterrupt).rsp = s.rsp := rfl
@[simp] theorem returnFromInterrupt_eng : (s.returnFromInterrupt).eng = s.eng := rfl
@[simp] theorem returnFromInterrupt_plat : (s.returnFromInterrupt).plat = s.plat := rfl
@[simp] theorem returnFromInterrupt_log : (s.returnFromInterrupt).log = s.log := rfl
@[simp] theorem returnFromInterrupt_hostWords : (s.returnFromInterrupt).hostWords = s.hostWords := rfl
@[simp] theorem returnFromInterrupt_lineBytes : (s.returnFromInterrupt).lineBytes = s.lineBytes := rfl
@[simp] theorem returnFromInterrupt_sched : (s.returnFromInterrupt).sched = s.sched := rfl
@[simp] theorem returnFromInterrupt_draws : (s.returnFromInterrupt).draws = s.draws := rfl
@[simp] theorem returnFromInterrupt_hostState : (s.returnFromInterrupt).hostState = s.hostState := rfl

/-! `capPinmux` -/

@[simp] theorem capPinmux_params (p : Pin) (fn : PinFn) : (s.capPinmux p fn).params = s.params := rfl
@[simp] theorem capPinmux_cur (p : Pin) (fn : PinFn) : (s.capPinmux p fn).cur = s.cur := rfl
@[simp] theorem capPinmux_sp (p : Pin) (fn : PinFn) : (s.capPinmux p fn).sp = s.sp := rfl
@[simp] theorem capPinmux_seq (p : Pin) (fn : PinFn) : (s.capPinmux p fn).seq = s.seq := rfl
@[simp] theorem capPinmux_active (p : Pin) (fn : PinFn) : (s.capPinmux p fn).active = s.active := rfl
@[simp] theorem capPinmux_rReg (p : Pin) (fn : PinFn) : (s.capPinmux p fn).rReg = s.rReg := rfl
@[simp] theorem capPinmux_cReg (p : Pin) (fn : PinFn) : (s.capPinmux p fn).cReg = s.cReg := rfl
@[simp] theorem capPinmux_bReg (p : Pin) (fn : PinFn) : (s.capPinmux p fn).bReg = s.bReg := rfl
@[simp] theorem capPinmux_eTmp (p : Pin) (fn : PinFn) : (s.capPinmux p fn).eTmp = s.eTmp := rfl
@[simp] theorem capPinmux_qTmp (p : Pin) (fn : PinFn) : (s.capPinmux p fn).qTmp = s.qTmp := rfl
@[simp] theorem capPinmux_dp (p : Pin) (fn : PinFn) : (s.capPinmux p fn).dp = s.dp := rfl
@[simp] theorem capPinmux_isrSp (p : Pin) (fn : PinFn) : (s.capPinmux p fn).isrSp = s.isrSp := rfl
@[simp] theorem capPinmux_isrF (p : Pin) (fn : PinFn) : (s.capPinmux p fn).isrF = s.isrF := rfl
@[simp] theorem capPinmux_isrByte (p : Pin) (fn : PinFn) : (s.capPinmux p fn).isrByte = s.isrByte := rfl
@[simp] theorem capPinmux_faults (p : Pin) (fn : PinFn) : (s.capPinmux p fn).faults = s.faults := rfl
@[simp] theorem capPinmux_rsp (p : Pin) (fn : PinFn) : (s.capPinmux p fn).rsp = s.rsp := rfl
@[simp] theorem capPinmux_eng (p : Pin) (fn : PinFn) : (s.capPinmux p fn).eng = s.eng := rfl
@[simp] theorem capPinmux_plat (p : Pin) (fn : PinFn) : (s.capPinmux p fn).plat = s.plat.setPin p fn := rfl
@[simp] theorem capPinmux_log (p : Pin) (fn : PinFn) : (s.capPinmux p fn).log = s.log ++ [.cap (.pinmux (p.id s.params) fn)] := rfl
@[simp] theorem capPinmux_hostWords (p : Pin) (fn : PinFn) : (s.capPinmux p fn).hostWords = s.hostWords := rfl
@[simp] theorem capPinmux_lineBytes (p : Pin) (fn : PinFn) : (s.capPinmux p fn).lineBytes = s.lineBytes := rfl
@[simp] theorem capPinmux_sched (p : Pin) (fn : PinFn) : (s.capPinmux p fn).sched = s.sched := rfl
@[simp] theorem capPinmux_draws (p : Pin) (fn : PinFn) : (s.capPinmux p fn).draws = s.draws := rfl
@[simp] theorem capPinmux_hostState (p : Pin) (fn : PinFn) : (s.capPinmux p fn).hostState = s.hostState := rfl

/-! `capEnableBusClock` -/

@[simp] theorem capEnableBusClock_params : (s.capEnableBusClock).params = s.params := rfl
@[simp] theorem capEnableBusClock_cur : (s.capEnableBusClock).cur = s.cur := rfl
@[simp] theorem capEnableBusClock_sp : (s.capEnableBusClock).sp = s.sp := rfl
@[simp] theorem capEnableBusClock_seq : (s.capEnableBusClock).seq = s.seq := rfl
@[simp] theorem capEnableBusClock_active : (s.capEnableBusClock).active = s.active := rfl
@[simp] theorem capEnableBusClock_rReg : (s.capEnableBusClock).rReg = s.rReg := rfl
@[simp] theorem capEnableBusClock_cReg : (s.capEnableBusClock).cReg = s.cReg := rfl
@[simp] theorem capEnableBusClock_bReg : (s.capEnableBusClock).bReg = s.bReg := rfl
@[simp] theorem capEnableBusClock_eTmp : (s.capEnableBusClock).eTmp = s.eTmp := rfl
@[simp] theorem capEnableBusClock_qTmp : (s.capEnableBusClock).qTmp = s.qTmp := rfl
@[simp] theorem capEnableBusClock_dp : (s.capEnableBusClock).dp = s.dp := rfl
@[simp] theorem capEnableBusClock_isrSp : (s.capEnableBusClock).isrSp = s.isrSp := rfl
@[simp] theorem capEnableBusClock_isrF : (s.capEnableBusClock).isrF = s.isrF := rfl
@[simp] theorem capEnableBusClock_isrByte : (s.capEnableBusClock).isrByte = s.isrByte := rfl
@[simp] theorem capEnableBusClock_faults : (s.capEnableBusClock).faults = s.faults := rfl
@[simp] theorem capEnableBusClock_rsp : (s.capEnableBusClock).rsp = s.rsp := rfl
@[simp] theorem capEnableBusClock_eng : (s.capEnableBusClock).eng = s.eng := rfl
@[simp] theorem capEnableBusClock_plat : (s.capEnableBusClock).plat = { s.plat with busClkOn := true } := rfl
@[simp] theorem capEnableBusClock_log : (s.capEnableBusClock).log = s.log ++ [.cap (.enableBusClock s.params.busClockId)] := rfl
@[simp] theorem capEnableBusClock_hostWords : (s.capEnableBusClock).hostWords = s.hostWords := rfl
@[simp] theorem capEnableBusClock_lineBytes : (s.capEnableBusClock).lineBytes = s.lineBytes := rfl
@[simp] theorem capEnableBusClock_sched : (s.capEnableBusClock).sched = s.sched := rfl
@[simp] theorem capEnableBusClock_draws : (s.capEnableBusClock).draws = s.draws := rfl
@[simp] theorem capEnableBusClock_hostState : (s.capEnableBusClock).hostState = s.hostState := rfl

/-! `capRouteGenerator` -/

@[simp] theorem capRouteGenerator_params : (s.capRouteGenerator).params = s.params := rfl
@[simp] theorem capRouteGenerator_cur : (s.capRouteGenerator).cur = s.cur := rfl
@[simp] theorem capRouteGenerator_sp : (s.capRouteGenerator).sp = s.sp := rfl
@[simp] theorem capRouteGenerator_seq : (s.capRouteGenerator).seq = s.seq := rfl
@[simp] theorem capRouteGenerator_active : (s.capRouteGenerator).active = s.active := rfl
@[simp] theorem capRouteGenerator_rReg : (s.capRouteGenerator).rReg = s.rReg := rfl
@[simp] theorem capRouteGenerator_cReg : (s.capRouteGenerator).cReg = s.cReg := rfl
@[simp] theorem capRouteGenerator_bReg : (s.capRouteGenerator).bReg = s.bReg := rfl
@[simp] theorem capRouteGenerator_eTmp : (s.capRouteGenerator).eTmp = s.eTmp := rfl
@[simp] theorem capRouteGenerator_qTmp : (s.capRouteGenerator).qTmp = s.qTmp := rfl
@[simp] theorem capRouteGenerator_dp : (s.capRouteGenerator).dp = s.dp := rfl
@[simp] theorem capRouteGenerator_isrSp : (s.capRouteGenerator).isrSp = s.isrSp := rfl
@[simp] theorem capRouteGenerator_isrF : (s.capRouteGenerator).isrF = s.isrF := rfl
@[simp] theorem capRouteGenerator_isrByte : (s.capRouteGenerator).isrByte = s.isrByte := rfl
@[simp] theorem capRouteGenerator_faults : (s.capRouteGenerator).faults = s.faults := rfl
@[simp] theorem capRouteGenerator_rsp : (s.capRouteGenerator).rsp = s.rsp := rfl
@[simp] theorem capRouteGenerator_eng : (s.capRouteGenerator).eng = s.eng := rfl
@[simp] theorem capRouteGenerator_plat : (s.capRouteGenerator).plat = { s.plat with gclkRouted := true } := rfl
@[simp] theorem capRouteGenerator_log : (s.capRouteGenerator).log = s.log ++ [.cap (.routeGenerator s.params.periphClockId s.params.gclkGenId)] := rfl
@[simp] theorem capRouteGenerator_hostWords : (s.capRouteGenerator).hostWords = s.hostWords := rfl
@[simp] theorem capRouteGenerator_lineBytes : (s.capRouteGenerator).lineBytes = s.lineBytes := rfl
@[simp] theorem capRouteGenerator_sched : (s.capRouteGenerator).sched = s.sched := rfl
@[simp] theorem capRouteGenerator_draws : (s.capRouteGenerator).draws = s.draws := rfl
@[simp] theorem capRouteGenerator_hostState : (s.capRouteGenerator).hostState = s.hostState := rfl

/-! `capUnmask` -/

@[simp] theorem capUnmask_params : (s.capUnmask).params = s.params := rfl
@[simp] theorem capUnmask_cur : (s.capUnmask).cur = s.cur := rfl
@[simp] theorem capUnmask_sp : (s.capUnmask).sp = s.sp := rfl
@[simp] theorem capUnmask_seq : (s.capUnmask).seq = s.seq := rfl
@[simp] theorem capUnmask_active : (s.capUnmask).active = s.active := rfl
@[simp] theorem capUnmask_rReg : (s.capUnmask).rReg = s.rReg := rfl
@[simp] theorem capUnmask_cReg : (s.capUnmask).cReg = s.cReg := rfl
@[simp] theorem capUnmask_bReg : (s.capUnmask).bReg = s.bReg := rfl
@[simp] theorem capUnmask_eTmp : (s.capUnmask).eTmp = s.eTmp := rfl
@[simp] theorem capUnmask_qTmp : (s.capUnmask).qTmp = s.qTmp := rfl
@[simp] theorem capUnmask_dp : (s.capUnmask).dp = s.dp := rfl
@[simp] theorem capUnmask_isrSp : (s.capUnmask).isrSp = s.isrSp := rfl
@[simp] theorem capUnmask_isrF : (s.capUnmask).isrF = s.isrF := rfl
@[simp] theorem capUnmask_isrByte : (s.capUnmask).isrByte = s.isrByte := rfl
@[simp] theorem capUnmask_faults : (s.capUnmask).faults = s.faults := rfl
@[simp] theorem capUnmask_rsp : (s.capUnmask).rsp = s.rsp := rfl
@[simp] theorem capUnmask_eng : (s.capUnmask).eng = s.eng := rfl
@[simp] theorem capUnmask_plat : (s.capUnmask).plat = { s.plat with lineUnmasked := true } := rfl
@[simp] theorem capUnmask_log : (s.capUnmask).log = s.log ++ [.cap (.unmask s.params.irqLine)] := rfl
@[simp] theorem capUnmask_hostWords : (s.capUnmask).hostWords = s.hostWords := rfl
@[simp] theorem capUnmask_lineBytes : (s.capUnmask).lineBytes = s.lineBytes := rfl
@[simp] theorem capUnmask_sched : (s.capUnmask).sched = s.sched := rfl
@[simp] theorem capUnmask_draws : (s.capUnmask).draws = s.draws := rfl
@[simp] theorem capUnmask_hostState : (s.capUnmask).hostState = s.hostState := rfl

/-! `deliver` -/

@[simp] theorem deliver_params (b : Byte) : (s.deliver b).params = s.params := rfl
@[simp] theorem deliver_cur (b : Byte) : (s.deliver b).cur = s.cur := rfl
@[simp] theorem deliver_sp (b : Byte) : (s.deliver b).sp = s.sp := rfl
@[simp] theorem deliver_seq (b : Byte) : (s.deliver b).seq = s.seq := rfl
@[simp] theorem deliver_active (b : Byte) : (s.deliver b).active = s.active := rfl
@[simp] theorem deliver_rReg (b : Byte) : (s.deliver b).rReg = s.rReg := rfl
@[simp] theorem deliver_cReg (b : Byte) : (s.deliver b).cReg = s.cReg := rfl
@[simp] theorem deliver_bReg (b : Byte) : (s.deliver b).bReg = s.bReg := rfl
@[simp] theorem deliver_eTmp (b : Byte) : (s.deliver b).eTmp = s.eTmp := rfl
@[simp] theorem deliver_qTmp (b : Byte) : (s.deliver b).qTmp = s.qTmp := rfl
@[simp] theorem deliver_dp (b : Byte) : (s.deliver b).dp = s.dp := rfl
@[simp] theorem deliver_isrSp (b : Byte) : (s.deliver b).isrSp = s.isrSp := rfl
@[simp] theorem deliver_isrF (b : Byte) : (s.deliver b).isrF = s.isrF := rfl
@[simp] theorem deliver_isrByte (b : Byte) : (s.deliver b).isrByte = s.isrByte := rfl
@[simp] theorem deliver_faults (b : Byte) : (s.deliver b).faults = s.faults := rfl
@[simp] theorem deliver_rsp (b : Byte) : (s.deliver b).rsp = s.rsp := rfl
@[simp] theorem deliver_eng (b : Byte) : (s.deliver b).eng = s.eng := rfl
@[simp] theorem deliver_plat (b : Byte) : (s.deliver b).plat = s.plat := rfl
@[simp] theorem deliver_log (b : Byte) : (s.deliver b).log = s.log ++ [.deliver b] := rfl
@[simp] theorem deliver_hostWords (b : Byte) : (s.deliver b).hostWords = s.hostWords := rfl
@[simp] theorem deliver_lineBytes (b : Byte) : (s.deliver b).lineBytes = s.lineBytes := rfl
@[simp] theorem deliver_sched (b : Byte) : (s.deliver b).sched = s.sched := rfl
@[simp] theorem deliver_draws (b : Byte) : (s.deliver b).draws = s.draws := rfl
@[simp] theorem deliver_hostState (b : Byte) :
    (s.deliver b).hostState = invokeCallback s.params.callback b s.hostState := rfl

/-! `tick` -/

@[simp] theorem tick_params : (s.tick).params = s.params := rfl
@[simp] theorem tick_cur : (s.tick).cur = s.cur := rfl
@[simp] theorem tick_sp : (s.tick).sp = s.sp := rfl
@[simp] theorem tick_seq : (s.tick).seq = s.seq := rfl
@[simp] theorem tick_active : (s.tick).active = s.active := rfl
@[simp] theorem tick_rReg : (s.tick).rReg = s.rReg := rfl
@[simp] theorem tick_cReg : (s.tick).cReg = s.cReg := rfl
@[simp] theorem tick_bReg : (s.tick).bReg = s.bReg := rfl
@[simp] theorem tick_eTmp : (s.tick).eTmp = s.eTmp := rfl
@[simp] theorem tick_qTmp : (s.tick).qTmp = s.qTmp := rfl
@[simp] theorem tick_dp : (s.tick).dp = s.dp := rfl
@[simp] theorem tick_isrSp : (s.tick).isrSp = s.isrSp := rfl
@[simp] theorem tick_isrF : (s.tick).isrF = s.isrF := rfl
@[simp] theorem tick_isrByte : (s.tick).isrByte = s.isrByte := rfl
@[simp] theorem tick_faults : (s.tick).faults = s.faults := rfl
@[simp] theorem tick_rsp : (s.tick).rsp = s.rsp := rfl
@[simp] theorem tick_eng : (s.tick).eng = s.eng := rfl
@[simp] theorem tick_plat : (s.tick).plat = s.plat := rfl
@[simp] theorem tick_log : (s.tick).log = s.log := rfl
@[simp] theorem tick_hostWords : (s.tick).hostWords = s.hostWords := rfl
@[simp] theorem tick_lineBytes : (s.tick).lineBytes = s.lineBytes := rfl
@[simp] theorem tick_sched : (s.tick).sched = s.sched.tail := rfl
@[simp] theorem tick_draws : (s.tick).draws = s.draws := rfl
@[simp] theorem tick_hostState : (s.tick).hostState = s.hostState := rfl

/-! `loadOperands` and `accept` -/

@[simp] theorem loadOperands_params (i : Instr) : (s.loadOperands i).params = s.params := by cases i <;> rfl
@[simp] theorem loadOperands_cur (i : Instr) : (s.loadOperands i).cur = s.cur := by cases i <;> rfl
@[simp] theorem loadOperands_sp (i : Instr) : (s.loadOperands i).sp = s.sp := by cases i <;> rfl
@[simp] theorem loadOperands_seq (i : Instr) : (s.loadOperands i).seq = s.seq := by cases i <;> rfl
@[simp] theorem loadOperands_active (i : Instr) : (s.loadOperands i).active = s.active := by cases i <;> rfl
@[simp] theorem loadOperands_eTmp (i : Instr) : (s.loadOperands i).eTmp = s.eTmp := by cases i <;> rfl
@[simp] theorem loadOperands_qTmp (i : Instr) : (s.loadOperands i).qTmp = s.qTmp := by cases i <;> rfl
@[simp] theorem loadOperands_dp (i : Instr) : (s.loadOperands i).dp = s.dp := by cases i <;> rfl
@[simp] theorem loadOperands_isrSp (i : Instr) : (s.loadOperands i).isrSp = s.isrSp := by cases i <;> rfl
@[simp] theorem loadOperands_isrF (i : Instr) : (s.loadOperands i).isrF = s.isrF := by cases i <;> rfl
@[simp] theorem loadOperands_isrByte (i : Instr) : (s.loadOperands i).isrByte = s.isrByte := by cases i <;> rfl
@[simp] theorem loadOperands_faults (i : Instr) : (s.loadOperands i).faults = s.faults := by cases i <;> rfl
@[simp] theorem loadOperands_rsp (i : Instr) : (s.loadOperands i).rsp = s.rsp := by cases i <;> rfl
@[simp] theorem loadOperands_eng (i : Instr) : (s.loadOperands i).eng = s.eng := by cases i <;> rfl
@[simp] theorem loadOperands_plat (i : Instr) : (s.loadOperands i).plat = s.plat := by cases i <;> rfl
@[simp] theorem loadOperands_log (i : Instr) : (s.loadOperands i).log = s.log := by cases i <;> rfl
@[simp] theorem loadOperands_hostWords (i : Instr) : (s.loadOperands i).hostWords = s.hostWords := by cases i <;> rfl
@[simp] theorem loadOperands_lineBytes (i : Instr) : (s.loadOperands i).lineBytes = s.lineBytes := by cases i <;> rfl
@[simp] theorem loadOperands_sched (i : Instr) : (s.loadOperands i).sched = s.sched := by cases i <;> rfl
@[simp] theorem loadOperands_draws (i : Instr) : (s.loadOperands i).draws = s.draws := by cases i <;> rfl
@[simp] theorem loadOperands_hostState (i : Instr) : (s.loadOperands i).hostState = s.hostState := by cases i <;> rfl
@[simp] theorem accept_params (i : Instr) (c : Cmd) : (s.accept i c).params = s.params := by cases i <;> rfl
@[simp] theorem accept_cur (i : Instr) (c : Cmd) : (s.accept i c).cur = some c := rfl
@[simp] theorem accept_sp (i : Instr) (c : Cmd) : (s.accept i c).sp = 0 := rfl
@[simp] theorem accept_seq (i : Instr) (c : Cmd) : (s.accept i c).seq = s.seq := by cases i <;> rfl
@[simp] theorem accept_active (i : Instr) (c : Cmd) : (s.accept i c).active = s.active := by cases i <;> rfl
@[simp] theorem accept_rReg (i : Instr) (c : Cmd) : (s.accept i c).rReg = (s.loadOperands i).rReg := rfl
@[simp] theorem accept_cReg (i : Instr) (c : Cmd) : (s.accept i c).cReg = (s.loadOperands i).cReg := rfl
@[simp] theorem accept_bReg (i : Instr) (c : Cmd) : (s.accept i c).bReg = (s.loadOperands i).bReg := rfl
@[simp] theorem accept_eTmp (i : Instr) (c : Cmd) : (s.accept i c).eTmp = s.eTmp := by cases i <;> rfl
@[simp] theorem accept_qTmp (i : Instr) (c : Cmd) : (s.accept i c).qTmp = s.qTmp := by cases i <;> rfl
@[simp] theorem accept_dp (i : Instr) (c : Cmd) : (s.accept i c).dp = s.dp := by cases i <;> rfl
@[simp] theorem accept_isrSp (i : Instr) (c : Cmd) : (s.accept i c).isrSp = s.isrSp := by cases i <;> rfl
@[simp] theorem accept_isrF (i : Instr) (c : Cmd) : (s.accept i c).isrF = s.isrF := by cases i <;> rfl
@[simp] theorem accept_isrByte (i : Instr) (c : Cmd) : (s.accept i c).isrByte = s.isrByte := by cases i <;> rfl
@[simp] theorem accept_faults (i : Instr) (c : Cmd) : (s.accept i c).faults = s.faults := by cases i <;> rfl
@[simp] theorem accept_rsp (i : Instr) (c : Cmd) : (s.accept i c).rsp = s.rsp := by cases i <;> rfl
@[simp] theorem accept_eng (i : Instr) (c : Cmd) : (s.accept i c).eng = s.eng := by cases i <;> rfl
@[simp] theorem accept_plat (i : Instr) (c : Cmd) : (s.accept i c).plat = s.plat := by cases i <;> rfl
@[simp] theorem accept_log (i : Instr) (c : Cmd) : (s.accept i c).log = s.log ++ [.cmd (encode i)] := rfl
@[simp] theorem accept_hostWords (i : Instr) (c : Cmd) : (s.accept i c).hostWords = s.hostWords := by cases i <;> rfl
@[simp] theorem accept_lineBytes (i : Instr) (c : Cmd) : (s.accept i c).lineBytes = s.lineBytes := by cases i <;> rfl
@[simp] theorem accept_sched (i : Instr) (c : Cmd) : (s.accept i c).sched = s.sched := by cases i <;> rfl
@[simp] theorem accept_draws (i : Instr) (c : Cmd) : (s.accept i c).draws = s.draws := by cases i <;> rfl
@[simp] theorem accept_hostState (i : Instr) (c : Cmd) : (s.accept i c).hostState = s.hostState := by cases i <;> rfl

/-! The callback, the values drawn, and the pins. -/

@[simp] theorem invokeCallback_noop (b : Byte) (host : Nat) : invokeCallback .noop b host = host := rfl

@[simp] theorem drawBit_value : s.drawBit.1 = Config.freeBit s.draws := rfl
@[simp] theorem drawByte_value : s.drawByte.1 = Config.freeByte s.draws := rfl
@[simp] theorem setPin_tx (pl : Platform) (fn : PinFn) : pl.setPin .tx fn = { pl with txPinFn := fn } := rfl
@[simp] theorem setPin_rx (pl : Platform) (fn : PinFn) : pl.setPin .rx fn = { pl with rxPinFn := fn } := rfl
@[simp] theorem pinFn_tx (pl : Platform) : pl.pinFn .tx = pl.txPinFn := rfl
@[simp] theorem pinFn_rx (pl : Platform) : pl.pinFn .rx = pl.rxPinFn := rfl

end Sys2Proof.Machine
end

