-- ==== Sys2Proof/Laws/Ops.lean ====
section
/-! SUPPORT. What each shared operation can do, said once: fault sets, one mainline step, acceptance, the dispatch. -/

namespace Sys2Proof.Machine

/-! ## Fault sets (R28, R151) -/

theorem FaultName.mem_all (n : FaultName) : n ∈ FaultName.all := by cases n <;> decide

/-- Recording a fault adds exactly that fault. -/
@[simp] theorem mem_addFault (n m : FaultName) (fs : List FaultName) : m ∈ addFault n fs ↔ m = n ∨ m ∈ fs := by
  simp [addFault, FaultName.mem_all]

/-- A recorded fault set is in canonical form: it depends only on which faults it holds. -/
theorem addFault_canonical (n : FaultName) (fs : List FaultName) :
    addFault n fs = FaultName.all.filter fun m => decide (m ∈ addFault n fs) := by
  simp only [mem_addFault]
  simp [addFault]

/-- Recording a fault twice is recording it once. -/
theorem addFault_idem (n : FaultName) (fs : List FaultName) : addFault n (addFault n fs) = addFault n fs := by
  rw [addFault_canonical n (addFault n fs), addFault_canonical n fs]
  congr 1
  funext m
  simp [FaultName.mem_all]

/-! ## An ignored access changes only the fault set and the log (R151) -/

@[simp] theorem ignoredAccess_eng (s : State) (e : Event) (n : FaultName) : (s.ignoredAccess e n).eng = s.eng := rfl
@[simp] theorem ignoredAccess_plat (s : State) (e : Event) (n : FaultName) : (s.ignoredAccess e n).plat = s.plat := rfl
@[simp] theorem ignoredAccess_seq (s : State) (e : Event) (n : FaultName) : (s.ignoredAccess e n).seq = s.seq := rfl
@[simp] theorem ignoredAccess_cur (s : State) (e : Event) (n : FaultName) : (s.ignoredAccess e n).cur = s.cur := rfl
@[simp] theorem ignoredAccess_sp (s : State) (e : Event) (n : FaultName) : (s.ignoredAccess e n).sp = s.sp := rfl
@[simp] theorem ignoredAccess_isrSp (s : State) (e : Event) (n : FaultName) : (s.ignoredAccess e n).isrSp = s.isrSp := rfl
@[simp] theorem ignoredAccess_faults (s : State) (e : Event) (n : FaultName) :
    (s.ignoredAccess e n).faults = addFault n s.faults := rfl
@[simp] theorem ignoredAccess_log (s : State) (e : Event) (n : FaultName) :
    (s.ignoredAccess e n).log = s.log ++ [e, .fault n] := rfl

/-! ## One step of a mainline command (R90, R163) -/

theorem mainlineStep_isr {i : Instr} {c : Cmd} {seq : State → Answer} {s : State} (h : s.isrSp ≠ none) :
    mainlineStep i c seq s = .next s := by
  cases hs : s.isrSp with
  | none => exact absurd hs h
  | some _ => simp [mainlineStep, hs]

theorem mainlineStep_accept {i : Instr} {c : Cmd} {seq : State → Answer} {s : State} (hi : s.isrSp = none)
    (hc : s.cur = none) : mainlineStep i c seq s = .next (s.accept i c) := by
  simp [mainlineStep, hi, hc]

theorem mainlineStep_running {i : Instr} {c : Cmd} {seq : State → Answer} {s : State} (hi : s.isrSp = none)
    (hc : s.cur = some c) : mainlineStep i c seq s = seq s := by
  simp [mainlineStep, hi, hc]

theorem mainlineStep_busy {i : Instr} {c d : Cmd} {seq : State → Answer} {s : State} (hc : s.cur = some d) (hd : d ≠ c) :
    mainlineStep i c seq s = .next s := by
  simp [mainlineStep, hc, hd]

/-- Everything one step of a mainline command can do: nothing, the acceptance, or the numbered step. -/
theorem mainlineStep_cases (i : Instr) (c : Cmd) (seq : State → Answer) (s : State) :
    mainlineStep i c seq s = .next s ∨
    (s.isrSp = none ∧ s.cur = none ∧ mainlineStep i c seq s = .next (s.accept i c)) ∨
    (s.isrSp = none ∧ s.cur = some c ∧ mainlineStep i c seq s = seq s) := by
  by_cases hi : s.isrSp = none
  · cases hc : s.cur with
    | none => exact .inr (.inl ⟨hi, rfl, mainlineStep_accept hi hc⟩)
    | some d =>
      by_cases hd : d = c
      · subst hd; exact .inr (.inr ⟨hi, rfl, mainlineStep_running hi hc⟩)
      · exact .inl (mainlineStep_busy hc hd)
  · exact .inl (mainlineStep_isr hi)

/-- The port is ready exactly when no command and no ISR runs (R90). -/
theorem portReady_iff (s : State) : s.portReady = true ↔ s.cur = none ∧ s.isrSp = none := by
  simp [State.portReady]

/-! ## The dispatch (R91, R164) -/

/-- The dispatch port's one word is RXISR's, so the ISR agent's move is RXISR's meaning. -/
theorem isrMove_eq (s : State) : isrMove s = exec .rxisr s := rfl

theorem dispatchReady_iff (s : State) :
    s.dispatchReady = true ↔
      (s.eng.rxc = true ∧ s.eng.intenRxc = true ∧ s.eng.swrstPending = false) ∧ s.plat.lineUnmasked = true ∧
        s.isrSp = none := by
  simp [State.dispatchReady, Engine.irqReq, and_assoc]

/-! ## The step (R163) -/

theorem step_eq_runMove {s : State} (hf : s.params.sysClkHz ≠ 0) : step s = runMove s.nextMove s.tick := if_neg hf

theorem nextMove_cons {s : State} {m : Move} {ms : List Move} (h : s.sched = m :: ms) : s.nextMove = m := by
  simp [State.nextMove, h]

/-- A step that answers ran a move, of an instance with a legal clock. -/
theorem runMove_of_step {s t : State} (h : step s = .next t) :
    s.params.sysClkHz ≠ 0 ∧ runMove s.nextMove s.tick = .next t := by
  by_cases hf : s.params.sysClkHz = 0
  · exact absurd h (by simp [step, hf])
  · exact ⟨hf, step_eq_runMove hf ▸ h⟩

end Sys2Proof.Machine
end

