-- ==== Sys2Proof/Laws/Baud.lean ====
section
/-! SUPPORT. What the divisor step can do (R26, R115): it writes the stage registers and `d_reg`, and nothing else. -/

namespace Sys2Proof.Machine

/-- The divisor depends only on the instance and the latched rate. -/
theorem divisor_congr {s t : State} (hp : t.params = s.params) (hr : t.rReg = s.rReg) : t.divisor = s.divisor := by
  simp only [State.divisor, hp, hr]

/-! A run of the datapath keeps the fragment registers. -/

@[simp] theorem run_frag0 (d : Datapath) (r : BitVec 32) : (d.run r).frag0 = d.frag0 := by simp only [Datapath.run]
@[simp] theorem run_frag1 (d : Datapath) (r : BitVec 32) : (d.run r).frag1 = d.frag1 := by simp only [Datapath.run]
@[simp] theorem run_frag2 (d : Datapath) (r : BitVec 32) : (d.run r).frag2 = d.frag2 := by simp only [Datapath.run]
@[simp] theorem run_frag3 (d : Datapath) (r : BitVec 32) : (d.run r).frag3 = d.frag3 := by simp only [Datapath.run]

/-- A run of the datapath depends only on the fragment registers and the rate. -/
theorem run_dReg_congr {d e : Datapath} (r : BitVec 32) (h0 : d.frag0 = e.frag0) (h1 : d.frag1 = e.frag1)
    (h2 : d.frag2 = e.frag2) (h3 : d.frag3 = e.frag3) : (d.run r).dReg = (e.run r).dReg := by
  simp only [Datapath.run, h0, h1, h2, h3]

theorem dividedDatapath_fixedPoint {s : State} (h : s.params.divisorMode = .fixedPoint) :
    s.dividedDatapath = s.dp.run s.rReg := by
  unfold State.dividedDatapath; rw [h]

theorem dividedDatapath_referenceRound {s : State} (h : s.params.divisorMode = .referenceRound) :
    s.dividedDatapath = { s.dp with dReg := referenceDivisor s.params.sysClkHz s.rReg } := by
  unfold State.dividedDatapath; rw [h]

theorem divisor_fixedPoint {s : State} (h : s.params.divisorMode = .fixedPoint) :
    s.divisor = baudDivisor s.params.sysClkHz s.rReg := by
  unfold State.divisor; rw [h]

theorem divisor_referenceRound {s : State} (h : s.params.divisorMode = .referenceRound) :
    s.divisor = referenceDivisor s.params.sysClkHz s.rReg := by
  unfold State.divisor; rw [h]

/-- With the fragments loaded, step S14 leaves the instance's divisor in `d_reg`. -/
theorem dividedDatapath_dReg {s : State} (h : s.FragmentsLoaded) : s.dividedDatapath.dReg = s.divisor := by
  cases hm : s.params.divisorMode with
  | fixedPoint =>
    rw [dividedDatapath_fixedPoint hm, divisor_fixedPoint hm, baudDivisor]
    exact run_dReg_congr _ h.1 h.2.1 h.2.2.1 h.2.2.2
  | referenceRound => rw [dividedDatapath_referenceRound hm, divisor_referenceRound hm]

/-- Step S14 never writes a fragment register (R26, R172). -/
theorem dividedDatapath_fragments (s : State) :
    s.dividedDatapath.frag0 = s.dp.frag0 ∧ s.dividedDatapath.frag1 = s.dp.frag1 ∧
      s.dividedDatapath.frag2 = s.dp.frag2 ∧ s.dividedDatapath.frag3 = s.dp.frag3 := by
  cases hm : s.params.divisorMode with
  | fixedPoint =>
    rw [dividedDatapath_fixedPoint hm]
    exact ⟨run_frag0 _ _, run_frag1 _ _, run_frag2 _ _, run_frag3 _ _⟩
  | referenceRound =>
    rw [dividedDatapath_referenceRound hm]
    simp only [and_self]

end Sys2Proof.Machine
end

