-- ==== Sys2Proof/Laws/Engine.lean ====
section
/-! SUPPORT. What each transaction and each engine step can do: its frame, and its effect when the access is legal. -/

namespace Sys2Proof.Machine

/-- `t` differs from `s` only in what a register transaction or an engine step may touch: the engine, the fault set, the
log and the count of draws. -/
def BusFrame (s t : State) : Prop :=
  t = { s with eng := t.eng, faults := t.faults, log := t.log, draws := t.draws }

theorem BusFrame.refl (s : State) : BusFrame s s := rfl

theorem BusFrame.trans {s t u : State} (h : BusFrame s t) (k : BusFrame t u) : BusFrame s u := by
  unfold BusFrame at *
  rw [k, h]

theorem busFrame_emit (s : State) (e : Event) : BusFrame s (s.emit e) := rfl

theorem busFrame_raiseFault (s : State) (n : FaultName) : BusFrame s (s.raiseFault n) := rfl

theorem busFrame_drawBit (s : State) : BusFrame s s.drawBit.2 := rfl

theorem busFrame_drawByte (s : State) : BusFrame s s.drawByte.2 := rfl

/-! ## Reads -/

theorem busFrame_readFlag (s : State) (entry : Bool → ReadEntry) (value : State → Bool × State)
    (hv : BusFrame s (value s).2) : BusFrame s (s.readFlag entry value).2 := by
  unfold State.readFlag
  split
  · rfl
  · exact hv.trans (busFrame_emit _ _)

theorem busFrame_enableValue (s : State) : BusFrame s s.enableValue.2 := by
  unfold State.enableValue; split <;> rfl

theorem busFrame_dreValue (s : State) : BusFrame s s.dreValue.2 := by
  unfold State.dreValue; split <;> rfl

theorem busFrame_readEnable (s : State) : BusFrame s s.readEnable.2 :=
  busFrame_readFlag s _ _ (busFrame_enableValue s)

theorem busFrame_readDre (s : State) : BusFrame s s.readDre.2 := busFrame_readFlag s _ _ (busFrame_dreValue s)

theorem busFrame_readRxc (s : State) : BusFrame s s.readRxc.2 := busFrame_readFlag s _ _ rfl

theorem busFrame_readData (s : State) : BusFrame s s.readData.2 := by
  unfold State.readData; split
  · rfl
  · split <;> rfl

/-- An enable read with nothing pending gives the applied value (R67, R103). -/
theorem readEnable_quiet {s : State} (hr : s.eng.swrstPending = false) (hs : s.eng.syncEnable = false) :
    s.readEnable = (s.eng.enableApplied, s.emit (.rd (.ctrlaEnable s.eng.enableApplied))) := by
  simp [State.readEnable, State.readFlag, State.enableValue, hr, hs]

/-- A DRE read while the transmitter is on tells whether `tx_hold` is empty (R42). -/
theorem readDre_on {s : State} (hr : s.eng.swrstPending = false) (ht : s.eng.transmitterOn = true) :
    s.readDre = (s.eng.txHold.isNone, s.emit (.rd (.intflagDre s.eng.txHold.isNone))) := by
  simp [State.readDre, State.readFlag, State.dreValue, hr, ht]

/-- A DRE read while the transmitter is off is a fresh draw (R42, D13). -/
theorem readDre_off {s : State} (hr : s.eng.swrstPending = false) (ht : s.eng.transmitterOn = false) :
    s.readDre =
      (Config.freeBit s.draws,
       { s with draws := s.draws + 1, log := s.log ++ [.rd (.intflagDre (Config.freeBit s.draws))] }) := by
  simp [State.readDre, State.readFlag, State.dreValue, hr, ht, State.drawBit, State.emit]

theorem readRxc_quiet {s : State} (hr : s.eng.swrstPending = false) :
    s.readRxc = (s.eng.rxc, s.emit (.rd (.intflagRxc s.eng.rxc))) := by
  simp [State.readRxc, State.readFlag, hr]

/-- A `DATA` read with a byte waiting returns it and clears the flag (R77). -/
theorem readData_full {s : State} (hr : s.eng.swrstPending = false) (hx : s.eng.rxc = true) :
    s.readData =
      (s.eng.rxData, { s with eng := { s.eng with rxc := false } }.emit (.rd (.data s.eng.rxData))) := by
  simp [State.readData, hr, hx]

/-- A `NotBusy` poll makes one read and goes on only when neither CTRLA synchronisation is in progress (R44, R60). -/
theorem pollNotBusy_eq (s : State) (here next : Nat) :
    s.pollNotBusy here next =
      { s with
        sp := if s.eng.swrstPending = true ∨ s.eng.syncEnable = true then here else next
        log := s.log ++ [.rd (.syncbusyReset s.eng.swrstPending s.eng.syncEnable)] } := by
  by_cases hr : s.eng.swrstPending = true <;> by_cases hs : s.eng.syncEnable = true <;>
    simp [State.pollNotBusy, State.readNotBusy, State.gotoStep, State.emit, notBusy, hr, hs]

/-! ## Writes -/

theorem busFrame_write (s : State) (e : Event) (p : Bool) (f : State → State) (hf : ∀ u, BusFrame u (f u)) :
    BusFrame s (s.write e p f) := by
  unfold State.write
  split
  · rfl
  · split
    · rfl
    · exact (busFrame_emit s e).trans (hf _)

theorem busFrame_startEnableSync (s : State) (v : Bool) : BusFrame s (s.startEnableSync v) := by
  unfold State.startEnableSync; split <;> rfl

theorem busFrame_startSwrst (s : State) : BusFrame s s.startSwrst := by
  unfold State.startSwrst; split <;> rfl

theorem busFrame_startCtrlbSync (s : State) (c : Ctrlb) : BusFrame s (s.startCtrlbSync c) := by
  unfold State.startCtrlbSync; split <;> rfl

theorem busFrame_applyCtrla (s : State) (w : CtrlaWrite) : BusFrame s (s.applyCtrla w) := by
  have h1 : BusFrame s { s with eng := { s.eng with ctrla := w.fields } } := rfl
  unfold State.applyCtrla
  simp only
  split
  · rfl
  · split
    · exact h1.trans (busFrame_startEnableSync _ _)
    · split
      · exact h1.trans (busFrame_startSwrst _)
      · exact h1

theorem busFrame_fillTxHold (s : State) (b : Byte) : BusFrame s (s.fillTxHold b) := by
  unfold State.fillTxHold; split
  · rfl
  · split <;> rfl

theorem busFrame_writeEnable (s : State) (v : Bool) : BusFrame s (s.writeEnable v) :=
  busFrame_write s _ _ _ fun u => busFrame_startEnableSync u v

theorem busFrame_writeSwrst (s : State) (v : Bool) : BusFrame s (s.writeSwrst v) :=
  busFrame_write s _ _ _ fun u => by cases v with
    | false => exact BusFrame.refl u
    | true => exact busFrame_startSwrst u

theorem busFrame_writeCtrla (s : State) (w : CtrlaWrite) : BusFrame s (s.writeCtrla w) :=
  busFrame_write s _ _ _ fun u => busFrame_applyCtrla u w

theorem busFrame_writeBaud (s : State) (d : BitVec 16) : BusFrame s (s.writeBaud d) :=
  busFrame_write s _ _ _ fun _ => rfl

theorem busFrame_writeCtrlb (s : State) (c : Ctrlb) : BusFrame s (s.writeCtrlb c) :=
  busFrame_write s _ _ _ fun u => busFrame_startCtrlbSync u c

theorem busFrame_writeIntenset (s : State) (v : Bool) : BusFrame s (s.writeIntenset v) :=
  busFrame_write s _ _ _ fun _ => rfl

theorem busFrame_writeData (s : State) (b : Byte) : BusFrame s (s.writeData b) :=
  busFrame_write s _ _ _ fun u => busFrame_fillTxHold u b

/-- A legal write is its entry and then the register's own effect (R161). -/
theorem write_legal {s : State} {e : Event} {p : Bool} {f : State → State} (hr : s.eng.swrstPending = false)
    (hp : p = false ∨ s.eng.writeProtected = false) : s.write e p f = f (s.emit e) := by
  rcases hp with hp | hp <;> simp [State.write, hr, hp]

/-- Everything a write transaction can do (R161): it is ignored during an engine reset, or for enable protection, or it
takes its register's effect. -/
theorem write_cases (s : State) (e : Event) (p : Bool) (f : State → State) :
    (s.eng.swrstPending = true ∧ s.write e p f = s.ignoredAccess e .resetAccess) ∨
    (s.eng.swrstPending = false ∧ p = true ∧ s.eng.writeProtected = true ∧
      s.write e p f = s.ignoredAccess e .protectedWrite) ∨
    (s.eng.swrstPending = false ∧ (p = false ∨ s.eng.writeProtected = false) ∧ s.write e p f = f (s.emit e)) := by
  cases hr : s.eng.swrstPending with
  | true => exact .inl ⟨rfl, by simp [State.write, hr, State.ignoredAccess, State.emit, State.raiseFault]⟩
  | false =>
    cases p with
    | false => exact .inr (.inr ⟨rfl, .inl rfl, write_legal hr (.inl rfl)⟩)
    | true =>
      cases hp : s.eng.writeProtected with
      | false => exact .inr (.inr ⟨rfl, .inr rfl, write_legal hr (.inr hp)⟩)
      | true =>
        exact .inr (.inl ⟨rfl, rfl, rfl, by
          simp [State.write, hr, hp, State.ignoredAccess, State.emit, State.raiseFault]⟩)

/-- Everything a write of `CTRLA.ENABLE` can do (R68, R161). -/
theorem writeEnable_cases (s : State) (v : Bool) :
    (s.eng.swrstPending = true ∧ s.writeEnable v = s.ignoredAccess (.wf (.ctrlaEnable v)) .resetAccess) ∨
    (s.eng.swrstPending = false ∧ s.eng.syncEnable = true ∧
      s.writeEnable v = s.ignoredAccess (.wf (.ctrlaEnable v)) .syncViolation) ∨
    (s.eng.swrstPending = false ∧ s.eng.syncEnable = false ∧
      s.writeEnable v =
        { s with
          eng := { s.eng with pendEnable := some v, syncEnable := true }, log := s.log ++ [.wf (.ctrlaEnable v)] }) := by
  rcases write_cases s (.wf (.ctrlaEnable v)) false fun s => s.startEnableSync v with ⟨hr, h⟩ | ⟨_, hp, _⟩ | ⟨hr, _, h⟩
  · exact .inl ⟨hr, h⟩
  · cases hp
  · rw [State.writeEnable, h]
    cases hs : s.eng.syncEnable <;>
      simp [State.startEnableSync, State.emit, State.raiseFault, State.ignoredAccess, hs, hr]

/-- Everything a write of 1 to `CTRLA.SWRST` can do (R69, R161). -/
theorem writeSwrst_cases (s : State) :
    (s.eng.swrstPending = true ∧ s.writeSwrst true = s.ignoredAccess (.wf (.ctrlaSwrst true)) .resetAccess) ∨
    (s.eng.swrstPending = false ∧ s.eng.syncEnable = true ∧
      s.writeSwrst true = s.ignoredAccess (.wf (.ctrlaSwrst true)) .syncViolation) ∨
    (s.eng.swrstPending = false ∧ s.eng.syncEnable = false ∧
      s.writeSwrst true =
        { s with eng := { s.eng with swrstPending := true }, log := s.log ++ [.wf (.ctrlaSwrst true)] }) := by
  rcases write_cases s (.wf (.ctrlaSwrst true)) false fun s => if true then s.startSwrst else s with
    ⟨hr, h⟩ | ⟨_, hp, _⟩ | ⟨hr, _, h⟩
  · exact .inl ⟨hr, h⟩
  · cases hp
  · rw [State.writeSwrst, h]
    cases hs : s.eng.syncEnable <;>
      simp [State.startSwrst, State.emit, State.raiseFault, State.ignoredAccess, hs, hr]

/-- Everything CONFIG's whole write of CTRLA, with `ENABLE = 0` and `SWRST = 0`, can do (R70, R81, R161). -/
theorem writeCtrla_plain_cases (s : State) (f : Ctrla) :
    (∃ n, s.writeCtrla { fields := f, enable := false, swrst := false } =
      s.ignoredAccess (.wr (.ctrla { fields := f, enable := false, swrst := false })) n ∧
      (n = .resetAccess ∧ s.eng.swrstPending = true ∨ n = .protectedWrite ∧ s.eng.writeProtected = true)) ∨
    (s.eng.swrstPending = false ∧ s.eng.writeProtected = false ∧
      s.writeCtrla { fields := f, enable := false, swrst := false } =
        { s with
          eng := { s.eng with ctrla := f }
          log := s.log ++ [.wr (.ctrla { fields := f, enable := false, swrst := false })] }) := by
  rcases write_cases s (.wr (.ctrla { fields := f, enable := false, swrst := false })) true
      fun s => s.applyCtrla { fields := f, enable := false, swrst := false } with ⟨hr, h⟩ | ⟨_, _, hp, h⟩ | ⟨hr, hp, h⟩
  · exact .inl ⟨_, h, .inl ⟨rfl, hr⟩⟩
  · exact .inl ⟨_, h, .inr ⟨rfl, hp⟩⟩
  · have hp : s.eng.writeProtected = false := by simpa using hp
    have he : s.eng.enableApplied = false := by
      cases he : s.eng.enableApplied <;> simp_all [Engine.writeProtected]
    exact .inr ⟨hr, hp, by rw [State.writeCtrla, h]; simp [State.applyCtrla, State.ctrlaConflict, State.emit, he]⟩

/-- Everything a whole write of BAUD can do (R71, R81, R161). -/
theorem writeBaud_cases (s : State) (d : BitVec 16) :
    (∃ n, s.writeBaud d = s.ignoredAccess (.wr (.baud d)) n ∧
      (n = .resetAccess ∧ s.eng.swrstPending = true ∨ n = .protectedWrite ∧ s.eng.writeProtected = true)) ∨
    (s.eng.swrstPending = false ∧ s.eng.writeProtected = false ∧
      s.writeBaud d = { s with eng := { s.eng with baud := d }, log := s.log ++ [.wr (.baud d)] }) := by
  rcases write_cases s (.wr (.baud d)) true fun s => { s with eng := { s.eng with baud := d } } with
    ⟨hr, h⟩ | ⟨_, _, hp, h⟩ | ⟨hr, hp, h⟩
  · exact .inl ⟨_, h, .inl ⟨rfl, hr⟩⟩
  · exact .inl ⟨_, h, .inr ⟨rfl, hp⟩⟩
  · exact .inr ⟨hr, by simpa using hp, h⟩

/-- Everything a whole write of CTRLB can do (R72, R81, R161). -/
theorem writeCtrlb_cases (s : State) (c : Ctrlb) :
    (∃ n, s.writeCtrlb c = s.ignoredAccess (.wr (.ctrlb c)) n ∧
      (n = .resetAccess ∧ s.eng.swrstPending = true ∨ n = .protectedWrite ∧ s.eng.writeProtected = true ∨
        n = .syncViolation ∧ s.eng.syncCtrlb = true)) ∨
    (s.eng.swrstPending = false ∧ s.eng.writeProtected = false ∧ s.eng.syncCtrlb = false ∧
      s.writeCtrlb c =
        { s with
          eng := { s.eng with pendCtrlb := some c, syncCtrlb := true }, log := s.log ++ [.wr (.ctrlb c)] }) := by
  rcases write_cases s (.wr (.ctrlb c)) true fun s => s.startCtrlbSync c with ⟨hr, h⟩ | ⟨_, _, hp, h⟩ | ⟨hr, hp, h⟩
  · exact .inl ⟨_, h, .inl ⟨rfl, hr⟩⟩
  · exact .inl ⟨_, h, .inr (.inl ⟨rfl, hp⟩)⟩
  · cases hs : s.eng.syncCtrlb with
    | true =>
      refine .inl ⟨_, ?_, .inr (.inr ⟨rfl, rfl⟩)⟩
      rw [State.writeCtrlb, h]
      simp [State.startCtrlbSync, State.emit, State.raiseFault, State.ignoredAccess, hs]
    | false =>
      refine .inr ⟨hr, by simpa using hp, rfl, ?_⟩
      rw [State.writeCtrlb, h]
      simp [State.startCtrlbSync, State.emit, hs]

/-- Everything an INTENSET write can do (R75, R80). -/
theorem writeIntenset_cases (s : State) (v : Bool) :
    (s.eng.swrstPending = true ∧ s.writeIntenset v = s.ignoredAccess (.wr (.intenset v)) .resetAccess) ∨
    (s.eng.swrstPending = false ∧
      s.writeIntenset v =
        { s with eng := { s.eng with intenRxc := s.eng.intenRxc || v }, log := s.log ++ [.wr (.intenset v)] }) := by
  rcases write_cases s (.wr (.intenset v)) false fun s =>
      { s with eng := { s.eng with intenRxc := s.eng.intenRxc || v } } with ⟨hr, h⟩ | ⟨_, hp, _⟩ | ⟨hr, _, h⟩
  · exact .inl ⟨hr, h⟩
  · cases hp
  · exact .inr ⟨hr, h⟩

/-- Everything a `DATA` write can do (R76, R161). -/
theorem writeData_cases (s : State) (b : Byte) :
    (∃ n, s.writeData b = s.ignoredAccess (.wr (.data b)) n ∧
      (n = .resetAccess ∧ s.eng.swrstPending = true ∨ n = .txDisabled ∧ s.eng.transmitterOn = false ∨
        n = .txOverrun ∧ s.eng.transmitterOn = true ∧ s.eng.txHold ≠ none)) ∨
    (s.eng.swrstPending = false ∧ s.eng.transmitterOn = true ∧ s.eng.txHold = none ∧
      s.writeData b = { s with eng := { s.eng with txHold := some b }, log := s.log ++ [.wr (.data b)] }) := by
  rcases write_cases s (.wr (.data b)) false fun s => s.fillTxHold b with ⟨hr, h⟩ | ⟨_, hp, _⟩ | ⟨hr, _, h⟩
  · exact .inl ⟨_, h, .inl ⟨rfl, hr⟩⟩
  · cases hp
  · cases ht : s.eng.transmitterOn with
    | false =>
      refine .inl ⟨_, ?_, .inr (.inl ⟨rfl, rfl⟩)⟩
      rw [State.writeData, h]
      simp [State.fillTxHold, State.emit, State.raiseFault, State.ignoredAccess, ht]
    | true =>
      cases hh : s.eng.txHold with
      | some c =>
        refine .inl ⟨_, ?_, .inr (.inr ⟨rfl, rfl, by simp⟩)⟩
        rw [State.writeData, h]
        simp [State.fillTxHold, State.emit, State.raiseFault, State.ignoredAccess, ht, hh]
      | none =>
        refine .inr ⟨hr, rfl, rfl, ?_⟩
        rw [State.writeData, h]
        simp [State.fillTxHold, State.emit, ht, hh]

/-- Everything a flag read outside `SYNCBUSY` can do (R57, R80). -/
theorem readFlag_cases (s : State) (entry : Bool → ReadEntry) (value : State → Bool × State) :
    (s.eng.swrstPending = true ∧ s.readFlag entry value =
      (Config.freeBit s.draws,
        { s with draws := s.draws + 1 }.ignoredAccess (.rd (entry (Config.freeBit s.draws))) .resetAccess)) ∨
    (s.eng.swrstPending = false ∧
      s.readFlag entry value = ((value s).1, (value s).2.emit (.rd (entry (value s).1)))) := by
  cases hr : s.eng.swrstPending with
  | true =>
    exact .inl ⟨rfl, by
      simp [State.readFlag, hr, State.drawBit, State.emit, State.raiseFault, State.ignoredAccess]⟩
  | false => exact .inr ⟨rfl, by simp [State.readFlag, hr]⟩

/-- Everything a DRE read can do (R42, R57, R80). -/
theorem readDre_cases (s : State) :
    (s.eng.swrstPending = true ∧ s.readDre =
      (Config.freeBit s.draws,
        { s with draws := s.draws + 1 }.ignoredAccess (.rd (.intflagDre (Config.freeBit s.draws))) .resetAccess)) ∨
    (s.eng.swrstPending = false ∧ s.eng.transmitterOn = true ∧ s.readDre =
      (s.eng.txHold.isNone, s.emit (.rd (.intflagDre s.eng.txHold.isNone)))) ∨
    (s.eng.swrstPending = false ∧ s.eng.transmitterOn = false ∧ s.readDre =
      (Config.freeBit s.draws,
       { s with draws := s.draws + 1, log := s.log ++ [.rd (.intflagDre (Config.freeBit s.draws))] })) := by
  rcases readFlag_cases s .intflagDre State.dreValue with ⟨hr, h⟩ | ⟨hr, _⟩
  · exact .inl ⟨hr, h⟩
  · cases ht : s.eng.transmitterOn with
    | true => exact .inr (.inl ⟨hr, rfl, readDre_on hr ht⟩)
    | false => exact .inr (.inr ⟨hr, rfl, readDre_off hr ht⟩)

/-- Everything an enable read can do (R67, R80). -/
theorem readEnable_cases (s : State) :
    (s.eng.swrstPending = true ∧ s.readEnable =
      (Config.freeBit s.draws,
        { s with draws := s.draws + 1 }.ignoredAccess (.rd (.ctrlaEnable (Config.freeBit s.draws))) .resetAccess)) ∨
    (s.eng.swrstPending = false ∧ s.eng.syncEnable = false ∧ s.readEnable =
      (s.eng.enableApplied, s.emit (.rd (.ctrlaEnable s.eng.enableApplied)))) ∨
    (s.eng.swrstPending = false ∧ s.eng.syncEnable = true ∧ s.readEnable =
      (Config.freeBit s.draws,
       { s with draws := s.draws + 1, log := s.log ++ [.rd (.ctrlaEnable (Config.freeBit s.draws))] })) := by
  rcases readFlag_cases s .ctrlaEnable State.enableValue with ⟨hr, h⟩ | ⟨hr, h⟩
  · exact .inl ⟨hr, h⟩
  · cases hs : s.eng.syncEnable with
    | false => exact .inr (.inl ⟨hr, rfl, readEnable_quiet hr hs⟩)
    | true =>
      refine .inr (.inr ⟨hr, rfl, ?_⟩)
      rw [State.readEnable, h]
      simp [State.enableValue, hs, State.drawBit, State.emit]

/-- Everything an RXC read can do (R43, R80). -/
theorem readRxc_cases (s : State) :
    (s.eng.swrstPending = true ∧ s.readRxc =
      (Config.freeBit s.draws,
        { s with draws := s.draws + 1 }.ignoredAccess (.rd (.intflagRxc (Config.freeBit s.draws))) .resetAccess)) ∨
    (s.eng.swrstPending = false ∧ s.readRxc = (s.eng.rxc, s.emit (.rd (.intflagRxc s.eng.rxc)))) := by
  rcases readFlag_cases s .intflagRxc (fun s => (s.eng.rxc, s)) with ⟨hr, h⟩ | ⟨hr, h⟩
  · exact .inl ⟨hr, h⟩
  · exact .inr ⟨hr, h⟩

/-- Everything a `DATA` read can do (R77, R80, R161). -/
theorem readData_cases (s : State) :
    (∃ n, (n = .resetAccess ∧ s.eng.swrstPending = true ∨
        n = .rxEmptyRead ∧ s.eng.swrstPending = false ∧ s.eng.rxc = false) ∧ s.readData =
      (Config.freeByte s.draws,
        { s with draws := s.draws + 1 }.ignoredAccess (.rd (.data (Config.freeByte s.draws))) n)) ∨
    (s.eng.swrstPending = false ∧ s.eng.rxc = true ∧ s.readData =
      (s.eng.rxData, { s with eng := { s.eng with rxc := false }, log := s.log ++ [.rd (.data s.eng.rxData)] })) := by
  cases hr : s.eng.swrstPending with
  | true =>
    exact .inl ⟨_, .inl ⟨rfl, rfl⟩, by
      simp [State.readData, hr, State.drawByte, State.emit, State.raiseFault, State.ignoredAccess]⟩
  | false =>
    cases hx : s.eng.rxc with
    | false =>
      exact .inl ⟨_, .inr ⟨rfl, rfl, rfl⟩, by
        simp [State.readData, hr, hx, State.drawByte, State.emit, State.raiseFault, State.ignoredAccess]⟩
    | true => exact .inr ⟨rfl, rfl, by simp [State.readData, hr, hx, State.emit]⟩

theorem writeProtected_iff (e : Engine) :
    e.writeProtected = false ↔ e.enableApplied = false ∧ e.pendEnable = none := by
  simp [Engine.writeProtected]

/-! ## Engine steps -/

theorem busFrame_discardTxHold (s : State) : BusFrame s s.discardTxHold := by
  unfold State.discardTxHold
  split <;> rfl

theorem busFrame_engSyncEnable (s : State) : BusFrame s s.engSyncEnable := by
  unfold State.engSyncEnable
  split
  · rfl
  · simp only
    split
    · rfl
    · exact BusFrame.trans (t := { s with eng := _ }) rfl (busFrame_discardTxHold _)

theorem busFrame_engSyncCtrlb (s : State) : BusFrame s s.engSyncCtrlb := by
  unfold State.engSyncCtrlb; split <;> rfl

theorem busFrame_engSwrstDone (s : State) : BusFrame s s.engSwrstDone := by
  unfold State.engSwrstDone; split <;> rfl

theorem busFrame_engTx (s : State) : BusFrame s s.engTx := by
  unfold State.engTx
  split
  · rfl
  · split <;> rfl

/-- The line's step touches its own queue as well. -/
theorem lineStep_frame (s : State) :
    s.lineStep = { s with
      eng := s.lineStep.eng, faults := s.lineStep.faults, log := s.lineStep.log, lineBytes := s.lineStep.lineBytes } := by
  unfold State.lineStep
  split
  · rfl
  · split
    · unfold State.engRx
      simp only
      split <;> rfl
    · rfl

/-- Everything the line's step can do (R79): nothing, an overflow, or an arrival. -/
theorem lineStep_cases (s : State) :
    ((s.lineBytes = [] ∨ s.eng.rxReady = false) ∧ s.lineStep = s) ∨
    ∃ b rest, s.lineBytes = b :: rest ∧ s.eng.rxReady = true ∧
      ((s.eng.rxc = true ∧ s.lineStep =
        { s with
          faults := addFault .rxOverflow s.faults, lineBytes := rest
          log := s.log ++ [.wireRx b, .fault .rxOverflow] }) ∨
      (s.eng.rxc = false ∧ s.lineStep =
        { s with
          eng := { s.eng with rxData := b, rxc := true }, lineBytes := rest, log := s.log ++ [.wireRx b] })) := by
  cases hl : s.lineBytes with
  | nil => exact .inl ⟨.inl rfl, by simp [State.lineStep, hl]⟩
  | cons b rest =>
    cases hr : s.eng.rxReady with
    | false => exact .inl ⟨.inr rfl, by simp [State.lineStep, hl, hr]⟩
    | true =>
      refine .inr ⟨b, rest, rfl, rfl, ?_⟩
      cases hx : s.eng.rxc with
      | true => exact .inl ⟨rfl, by simp [State.lineStep, State.engRx, State.emit, State.raiseFault, hl, hr, hx]⟩
      | false => exact .inr ⟨rfl, by simp [State.lineStep, State.engRx, State.emit, hl, hr, hx]⟩

/-- Everything the transmit drain can do (R78). -/
theorem engTx_cases (s : State) :
    (s.eng.txReady = false ∧ s.engTx = s) ∨
    ∃ b, s.eng.txHold = some b ∧ s.eng.txReady = true ∧
      s.engTx = { s with eng := { s.eng with txHold := none }, log := s.log ++ [.wireTx b] } := by
  cases hh : s.eng.txHold with
  | none => exact .inl ⟨by simp [Engine.txReady, hh], by simp [State.engTx, hh]⟩
  | some b =>
    cases hr : s.eng.txReady with
    | false => exact .inl ⟨rfl, by simp [State.engTx, hh, hr]⟩
    | true => exact .inr ⟨b, rfl, rfl, by simp [State.engTx, hh, hr, State.emit]⟩

/-- Everything EngSyncEnable can do (R73). -/
theorem engSyncEnable_cases (s : State) :
    (s.eng.pendEnable = none ∧ s.engSyncEnable = s) ∨
    (∃ v, s.eng.pendEnable = some v ∧ (v = true ∨ s.eng.txHold = none) ∧
      s.engSyncEnable =
        { s with eng := { s.eng with enableApplied := v, pendEnable := none, syncEnable := false } }) ∨
    ∃ b, s.eng.pendEnable = some false ∧ s.eng.txHold = some b ∧
      s.engSyncEnable =
        { s with
          eng := { s.eng with enableApplied := false, pendEnable := none, syncEnable := false, txHold := none }
          draws := s.draws + 1
          log := s.log ++ if Config.freeBit s.draws = true then [.wireTx b] else [] } := by
  cases hp : s.eng.pendEnable with
  | none => exact .inl ⟨rfl, by simp [State.engSyncEnable, hp]⟩
  | some v =>
    cases v with
    | true => exact .inr (.inl ⟨true, rfl, .inl rfl, by simp [State.engSyncEnable, hp]⟩)
    | false =>
      cases hh : s.eng.txHold with
      | none =>
        exact .inr (.inl ⟨false, rfl, .inr rfl, by simp [State.engSyncEnable, State.discardTxHold, hp, hh]⟩)
      | some b =>
        refine .inr (.inr ⟨b, rfl, rfl, ?_⟩)
        by_cases hb : Config.freeBit s.draws = true <;>
          simp [State.engSyncEnable, State.discardTxHold, State.drawBit, hp, hh, hb]

/-- The disable arm empties `tx_hold` and touches nothing else of the engine (R73). -/
theorem discardTxHold_eng (s : State) : s.discardTxHold.eng = { s.eng with txHold := none } := by
  unfold State.discardTxHold
  split
  · next h => rw [← h]
  · rfl

end Sys2Proof.Machine
end

