-- ==== Sys2Proof/Laws/PerInstr.lean ====
section
/-! SUPPORT. Facts about every command as syntax, one lemma per constructor: the fields of its word (R84–R87). -/

namespace Sys2Proof.Laws.FormatFields

/-- A command's word has `Z = 0`, an `OP` the table assigns, and `C = 0` unless it is a CONFIG that claims the pins. -/
def Statement (i : Instr) : Prop :=
  zField (encode i) = 0 ∧ (1 ≤ (opField (encode i)).toNat ∧ (opField (encode i)).toNat ≤ 7) ∧
    (cField (encode i) = true → ∃ r, i = .config true r)

/-- The number a word in the one format stands for (R84). -/
theorem cmd40_toNat (data : BitVec 32) (c : Bool) (op : BitVec 4) :
    (cmd40 data c op).toNat = 256 * data.toNat + 16 * c.toNat + op.toNat := by
  have hc : c.toNat < 2 := c.toNat_lt
  have happ : ∀ (m n : Nat) (x : BitVec m) (y : BitVec n), (x ++ y).toNat = x.toNat * 2 ^ n + y.toNat := by
    intro m n x y
    rw [BitVec.toNat_append, ← Nat.shiftLeft_add_eq_or_of_lt y.isLt, Nat.shiftLeft_eq]
  simp only [cmd40, happ, BitVec.toNat_ofBool]
  have h0 : (0#3).toNat = 0 := rfl
  omega

/-- The fields of a word in the one format (R84). -/
theorem cmd40_fields (data : BitVec 32) (c : Bool) (op : BitVec 4) :
    zField (cmd40 data c op) = 0 ∧ opField (cmd40 data c op) = op ∧ cField (cmd40 data c op) = c ∧
      dataField (cmd40 data c op) = data := by
  have hc : c.toNat < 2 := c.toNat_lt
  have ho : op.toNat < 2 ^ 4 := op.isLt
  have hd : data.toNat < 2 ^ 32 := data.isLt
  refine ⟨?_, ?_, ?_, ?_⟩
  · apply BitVec.eq_of_toNat_eq
    simp only [zField, Word40.field, BitVec.extractLsb'_toNat, cmd40_toNat, Nat.shiftRight_eq_div_pow]
    have h0 : (0 : BitVec 3).toNat = 0 := rfl
    omega
  · apply BitVec.eq_of_toNat_eq
    simp only [opField, Word40.field, BitVec.extractLsb'_toNat, cmd40_toNat, Nat.shiftRight_eq_div_pow]
    omega
  · have h : (cmd40 data c op).toNat / 2 ^ 4 % 2 = c.toNat := by rw [cmd40_toNat]; omega
    simp only [cField, BitVec.getLsbD, Nat.testBit_eq_decide_div_mod_eq, h]
    cases c <;> rfl
  · apply BitVec.eq_of_toNat_eq
    simp only [dataField, Word40.field, BitVec.extractLsb'_toNat, cmd40_toNat, Nat.shiftRight_eq_div_pow]
    omega

theorem claim : Statement .claim := by
  obtain ⟨hz, ho, hc, _⟩ := cmd40_fields 0 false 0x1
  exact ⟨hz, by rw [encode, ho]; decide, by rw [encode, hc]; exact nofun⟩

theorem release : Statement .release := by
  obtain ⟨hz, ho, hc, _⟩ := cmd40_fields 0 false 0x2
  exact ⟨hz, by rw [encode, ho]; decide, by rw [encode, hc]; exact nofun⟩

theorem config (c : Bool) (r : BitVec 32) : Statement (.config c r) := by
  obtain ⟨hz, ho, hc, _⟩ := cmd40_fields r c 0x3
  exact ⟨hz, by rw [encode, ho]; decide, by rw [encode, hc]; rintro rfl; exact ⟨r, rfl⟩⟩

theorem rdyq : Statement .rdyq := by
  obtain ⟨hz, ho, hc, _⟩ := cmd40_fields 0 false 0x4
  exact ⟨hz, by rw [encode, ho]; decide, by rw [encode, hc]; exact nofun⟩

theorem wrnb (b : Byte) : Statement (.wrnb b) := by
  obtain ⟨hz, ho, hc, _⟩ := cmd40_fields (b.setWidth 32) false 0x5
  exact ⟨hz, by rw [encode, ho]; decide, by rw [encode, hc]; exact nofun⟩

theorem wrblk (b : Byte) : Statement (.wrblk b) := by
  obtain ⟨hz, ho, hc, _⟩ := cmd40_fields (b.setWidth 32) false 0x6
  exact ⟨hz, by rw [encode, ho]; decide, by rw [encode, hc]; exact nofun⟩

theorem rxisr : Statement .rxisr := by
  obtain ⟨hz, ho, hc, _⟩ := cmd40_fields 0 false 0x7
  exact ⟨hz, by rw [encode, ho]; decide, by rw [encode, hc]; exact nofun⟩

end Sys2Proof.Laws.FormatFields
end

