-- ==== Sys2Proof/Laws/Steps.lean ====
section
/-! SUPPORT. Everything one step of a command and one move of an agent can do, said once: the provers cite these instead of
unfolding `exec`, `runMove` or `step`. -/

namespace Sys2Proof.Machine

/-! ## Steps of a command -/

/-- The numbered steps of a mainline command. -/
def sequenceOf (c : Cmd) : State → Answer :=
  match c with
  | .claim => claimStep
  | .release => releaseStep
  | .config => configStep
  | .rdyq => rdyqStep
  | .wrnb => wrnbStep
  | .wrblk => wrblkStep

/-- A mainline command's meaning is one mainline step of its sequence. -/
theorem exec_mainline {i : Instr} {c : Cmd} (hc : cmdOf i = some c) (s : State) :
    exec i s = mainlineStep i c (sequenceOf c) s := by
  cases i <;> cases hc <;> rfl

/-- Everything one step of a mainline command can do: nothing, the acceptance, or the numbered step. -/
theorem exec_cases {i : Instr} {c : Cmd} {s t : State} (hc : cmdOf i = some c) (h : exec i s = .next t) :
    t = s ∨ (s.isrSp = none ∧ s.cur = none ∧ t = s.accept i c) ∨
      (s.isrSp = none ∧ s.cur = some c ∧ sequenceOf c s = .next t) := by
  rw [exec_mainline hc] at h
  rcases mainlineStep_cases i c (sequenceOf c) s with h' | ⟨hi, hn, h'⟩ | ⟨hi, hn, h'⟩
  · rw [h'] at h; cases h; exact .inl rfl
  · rw [h'] at h; cases h; exact .inr (.inl ⟨hi, hn, rfl⟩)
  · rw [h'] at h; exact .inr (.inr ⟨hi, hn, h⟩)

theorem claimStep_cases {s t : State} (h : claimStep s = .next t) :
    (s.sp = 0 ∧ t = (s.capPinmux .tx s.uartFn).gotoStep 1) ∨ (s.sp = 1 ∧ t = (s.capPinmux .rx s.uartFn).gotoStep 2) ∨
      (s.sp = 2 ∧ t = { s with active := true }.complete false) := by
  unfold claimStep at h; split at h <;> simp_all

theorem releaseStep_cases {s t : State} (h : releaseStep s = .next t) :
    (s.sp = 0 ∧ t = { s with active := false }.gotoStep 1) ∨ (s.sp = 1 ∧ t = (s.capPinmux .tx .gpio).gotoStep 2) ∨
      (s.sp = 2 ∧ t = (s.capPinmux .rx .gpio).complete false) := by
  unfold releaseStep at h; split at h <;> simp_all

theorem rdyqStep_cases {s t : State} (h : rdyqStep s = .next t) :
    s.sp = 0 ∧ t = { s.readDre.2 with qTmp := s.readDre.1 }.complete s.readDre.1 := by
  unfold rdyqStep at h; split at h <;> simp_all

theorem wrnbStep_cases {s t : State} (h : wrnbStep s = .next t) :
    s.sp = 0 ∧ t = (s.writeData s.bReg).complete false := by
  unfold wrnbStep at h; split at h <;> simp_all

theorem wrblkStep_cases {s t : State} (h : wrblkStep s = .next t) :
    (s.sp = 0 ∧ t = { s.readDre.2 with qTmp := s.readDre.1 }.gotoStep (if s.readDre.1 then 1 else 0)) ∨
      (s.sp = 1 ∧ t = (s.writeData s.bReg).complete false) := by
  unfold wrblkStep at h; split at h <;> simp_all

theorem configStep_cases {s t : State} (h : configStep s = .next t) :
    (s.sp = 0 ∧ t = configS0 s) ∨ (s.sp = 1 ∧ t = configS1 s) ∨ (s.sp = 2 ∧ t = configS2 s) ∨
    (s.sp = 3 ∧ t = configS3 s) ∨ (s.sp = 4 ∧ t = configS4 s) ∨ (s.sp = 5 ∧ t = configS5 s) ∨
    (s.sp = 6 ∧ t = configS6 s) ∨ (s.sp = 7 ∧ t = configS7 s) ∨ (s.sp = 8 ∧ t = configS8 s) ∨
    (s.sp = 9 ∧ t = configS9 s) ∨ (s.sp = 10 ∧ t = configS10 s) ∨ (s.sp = 11 ∧ t = configS11 s) ∨
    (s.sp = 12 ∧ t = configS12 s) ∨ (s.sp = 13 ∧ t = configS13 s) ∨ (s.sp = 14 ∧ t = configS14 s) ∨
    (s.sp = 15 ∧ t = configS15 s) ∨ (s.sp = 16 ∧ t = configS16 s) ∨ (s.sp = 17 ∧ t = configS17 s) ∨
    (s.sp = 18 ∧ t = configS18 s) ∨ (s.sp = 19 ∧ t = configS19 s) ∨ (s.sp = 20 ∧ t = configS20 s) ∨
    (s.sp = 21 ∧ t = configS21 s) ∨ (s.sp = 22 ∧ t = configS22 s) := by
  unfold configStep at h
  split at h <;> simp_all

/-- Everything one step of RXISR can do (R142, R164). -/
theorem rxisr_cases {s t : State} (h : exec .rxisr s = .next t) :
    (s.isrSp = none ∧ s.dispatchReady = true ∧ t = s.takeInterrupt) ∨
    (s.isrSp = none ∧ s.dispatchReady = false ∧ t = s) ∨ (s.isrSp = some .i0 ∧ t = rxisrI0 s) ∨
    (s.isrSp = some .i1 ∧ t = rxisrI1 s) ∨ (s.isrSp = some .i2 ∧ t = rxisrI2 s) := by
  change execRxisr s = .next t at h
  unfold execRxisr at h
  split at h
  · split at h <;> cases h <;> simp_all
  all_goals cases h; simp_all

/-- RXISR answers a next state in every state. -/
theorem rxisr_answers (s : State) : ∃ t, exec .rxisr s = .next t := by
  change ∃ t, execRxisr s = .next t
  unfold execRxisr
  split
  · split <;> exact ⟨_, rfl⟩
  all_goals exact ⟨_, rfl⟩

/-! ## Moves of the agents (R163) -/

/-- A word the mainline decoder takes is a mainline command. -/
theorem cmdOf_of_decode {w : Word40} {i : Instr} (h : decode .mainline w = .ok i) : ∃ c, cmdOf i = some c := by
  simp only [decode, decodeMainline, decodeBare, decodeByte] at h
  repeat' split at h
  all_goals first | (cases h; exact ⟨_, rfl⟩) | cases h

/-- Everything one move can do: nothing, the acceptance of a legal or an illegal word, a numbered step, a step of RXISR,
or a step of the engine or the line. -/
theorem runMove_cases {m : Move} {s t : State} (h : runMove m s = .next t) :
    t = s ∨
    (m = .host ∧ s.idle ∧ ∃ w rest i c, s.hostWords = w :: rest ∧ decode .mainline w = .ok i ∧ cmdOf i = some c ∧
      t = { s with hostWords := rest }.accept i c) ∨
    (m = .host ∧ s.idle ∧ ∃ w rest e, s.hostWords = w :: rest ∧ decode .mainline w = .error e ∧
      t = { s with hostWords := rest }.acceptIllegal w) ∨
    (m = .mainline ∧ s.isrSp = none ∧ ∃ c, s.cur = some c ∧ sequenceOf c s = .next t) ∨
    (m = .isr ∧ exec .rxisr s = .next t) ∨
    (m = .engSyncEnable ∧ t = s.engSyncEnable) ∨ (m = .engSyncCtrlb ∧ t = s.engSyncCtrlb) ∨
    (m = .engSwrstDone ∧ t = s.engSwrstDone) ∨ (m = .engTx ∧ t = s.engTx) ∨ (m = .line ∧ t = s.lineStep) := by
  cases m with
  | host =>
    simp only [runMove, hostMove] at h
    split at h
    · next hr =>
      have hr := (portReady_iff s).1 hr
      split at h
      · cases h; exact .inl rfl
      · next w rest hw =>
        unfold present at h
        split at h
        · next i hi =>
          obtain ⟨c, hc⟩ := cmdOf_of_decode hi
          rw [exec_mainline hc, mainlineStep_accept (s := { s with hostWords := rest }) hr.2 hr.1] at h
          cases h
          exact .inr (.inl ⟨rfl, hr, w, rest, i, c, hw, hi, hc, rfl⟩)
        · next e he => cases h; exact .inr (.inr (.inl ⟨rfl, hr, w, rest, e, hw, he, rfl⟩))
    · cases h; exact .inl rfl
  | mainline =>
    simp only [runMove, mainlineMove] at h
    split at h
    · cases h; exact .inl rfl
    · next c hc =>
      have hcc : cmdOf (s.runningInstr c) = some c := by cases c <;> rfl
      rcases exec_cases hcc h with h | ⟨_, h', _⟩ | ⟨hi, _, h⟩
      · exact .inl h
      · simp [hc] at h'
      · exact .inr (.inr (.inr (.inl ⟨rfl, hi, c, hc, h⟩)))
  | isr => exact .inr (.inr (.inr (.inr (.inl ⟨rfl, h⟩))))
  | engSyncEnable => cases h; simp
  | engSyncCtrlb => cases h; simp
  | engSwrstDone => cases h; simp
  | engTx => cases h; simp
  | line => cases h; simp

end Sys2Proof.Machine
end

