-- ==== Sys2Proof/Machine/Assembler.lean ====
section
/-! DEFINITION. The assembler syntax of R96, one command a line, and the call-name aliases of R97. It stands beside the
machine: no step reads it. -/

namespace Sys2Proof.Machine

/-- The pieces of a line. -/
inductive Token where
  | word (cs : List Char)   -- a mnemonic, a call name or a number
  | comma
  | lparen
  | rparen
  deriving DecidableEq, Repr

/-- A character of a mnemonic, a call name or a number. -/
def isWordChar (c : Char) : Bool :=
  let n := c.toNat
  (48 ≤ n && n ≤ 57) || (97 ≤ n && n ≤ 122) || (65 ≤ n && n ≤ 90) || c == '_'

/-- The word read so far, if any, before the tokens that follow it. -/
def flushWord (acc : List Char) (rest : List Token) : List Token :=
  if acc.isEmpty then rest else .word acc.reverse :: rest

/-- The tokens of a line; `;` starts a comment (R96). `none` on a character no line holds. -/
def tokens (acc : List Char) : List Char → Option (List Token)
  | [] => some (flushWord acc [])
  | c :: cs =>
    if c == ';' then some (flushWord acc [])
    else if c == ' ' || c == '\t' then (tokens [] cs).map (flushWord acc)
    else if c == ',' then (tokens [] cs).map fun ts => flushWord acc (.comma :: ts)
    else if c == '(' then (tokens [] cs).map fun ts => flushWord acc (.lparen :: ts)
    else if c == ')' then (tokens [] cs).map fun ts => flushWord acc (.rparen :: ts)
    else if isWordChar c then tokens (c :: acc) cs
    else none

/-- The value of a digit in a base, if it is one. -/
def digitIn (base : Nat) (c : Char) : Option Nat :=
  let n := c.toNat
  let v :=
    if 48 ≤ n ∧ n ≤ 57 then n - 48
    else if 97 ≤ n ∧ n ≤ 102 then n - 87
    else if 65 ≤ n ∧ n ≤ 70 then n - 55
    else base
  if v < base then some v else none

/-- The digits after the ones read so far, most significant first. -/
def readDigits (base acc : Nat) : List Char → Option Nat
  | [] => some acc
  | c :: cs =>
    match digitIn base c with
    | some d => readDigits base (base * acc + d) cs
    | none => none

/-- A decimal or `0x`-prefixed number below `bound` (R96). -/
def readNumber (bound : Nat) (cs : List Char) : Option Nat :=
  let value :=
    match cs with
    | [] => none
    | '0' :: 'x' :: [] => none
    | '0' :: 'x' :: ds => readDigits 16 0 ds
    | ds => readDigits 10 0 ds
  match value with
  | some n => if n < bound then some n else none
  | none => none

/-- `config <c>, <R>`: `c` is 0 or 1 and `0 <= R < 2^32` (R96). -/
def readConfig (c r : List Char) : Option Instr :=
  match readNumber 2 c, readNumber (2 ^ 32) r with
  | some c, some r => some (.config (c == 1) (BitVec.ofNat 32 r))
  | _, _ => none

/-- A byte operand, `0 <= b < 256` (R96). -/
def readByte (mk : Byte → Instr) (b : List Char) : Option Instr :=
  (readNumber 256 b).map fun n => mk (BitVec.ofNat 8 n)

/-- The commands without operands, by mnemonic (R96). -/
def bareMnemonic (m : List Char) : Option Instr :=
  if m = ['c', 'l', 'a', 'i', 'm'] then some .claim
  else if m = ['r', 'e', 'l', 'e', 'a', 's', 'e'] then some .release
  else if m = ['r', 'd', 'y', 'q'] then some .rdyq
  else if m = ['r', 'x', 'i', 's', 'r'] then some .rxisr
  else none

/-- The commands with a byte operand, by mnemonic (R96). -/
def byteMnemonic (m b : List Char) : Option Instr :=
  if m = ['w', 'r', 'n', 'b'] then readByte .wrnb b
  else if m = ['w', 'r', 'b', 'l', 'k'] then readByte .wrblk b
  else none

/-- The call names without arguments (R97). -/
def bareCall (m : List Char) : Option Instr :=
  if m = ['c', 'l', 'a', 'i', 'm', '_', 'p', 'i', 'n', 's'] then some .claim
  else if m = ['r', 'e', 'l', 'e', 'a', 's', 'e', '_', 'p', 'i', 'n', 's'] then some .release
  else if m = ['r', 'e', 'a', 'd', 'y', '_', 'f', 'o', 'r', '_', 'w', 'r', 'i', 't', 'e'] then some .rdyq
  else none

/-- The call names with a byte argument (R97). -/
def byteCall (m b : List Char) : Option Instr :=
  if m = ['w', 'r', 'i', 't', 'e', '_', 'n', 'o', 'n', 'b', 'l', 'o', 'c', 'k', 'i', 'n', 'g'] then readByte .wrnb b
  else if m = ['w', 'r', 'i', 't', 'e', '_', 'b', 'l', 'o', 'c', 'k', 'i', 'n', 'g'] then readByte .wrblk b
  else none

/-- The command a line's tokens name: the mnemonic forms of R96 and the call forms of R97. -/
def parseTokens : List Token → Option Instr
  | [.word m] => bareMnemonic m
  | [.word m, .word b] => byteMnemonic m b
  | [.word m, .word c, .comma, .word r] =>
    if m = ['c', 'o', 'n', 'f', 'i', 'g'] then readConfig c r else none
  | [.word m, .lparen, .rparen] => bareCall m
  | [.word m, .lparen, .word b, .rparen] => byteCall m b
  | [.word m, .lparen, .word c, .comma, .word r, .rparen] =>
    if m = ['c', 'o', 'n', 'f', 'i', 'g', 'u', 'r', 'e'] then readConfig c r else none
  | _ => none

/-- The command a line names. -/
def parseLine (line : List Char) : Option Instr :=
  match tokens [] line with
  | some ts => parseTokens ts
  | none => none

/-- The word a line assembles to for the mainline port; `rxisr` is "not assemblable for the mainline port" (R96). -/
def assembleLine (line : List Char) : Option Word40 :=
  match parseLine line with
  | some i => if i.wellFormedOn .mainline then some (encode i) else none
  | none => none

/-- The text of a command (R96), numbers in decimal. -/
def printInstr : Instr → List Char
  | .claim => ['c', 'l', 'a', 'i', 'm']
  | .release => ['r', 'e', 'l', 'e', 'a', 's', 'e']
  | .config c r =>
    ['c', 'o', 'n', 'f', 'i', 'g', ' ', if c then '1' else '0', ',', ' '] ++ Nat.toDigits 10 r.toNat
  | .rdyq => ['r', 'd', 'y', 'q']
  | .wrnb b => ['w', 'r', 'n', 'b', ' '] ++ Nat.toDigits 10 b.toNat
  | .wrblk b => ['w', 'r', 'b', 'l', 'k', ' '] ++ Nat.toDigits 10 b.toNat
  | .rxisr => ['r', 'x', 'i', 's', 'r']

end Sys2Proof.Machine
end

