-- ==== Sys2Proof/Tests/Slice0.lean ====
section
/-! SUPPORT. Small checks of the model against the spec's own vectors (95_test_vectors.md), one step or one short command
each, and for every obligation that has hypotheses a witness that something meets them. -/

namespace Sys2Proof.Tests

open Sys2Proof Sys2Proof.Machine

/-! ## The states the tests start from -/

/-- The mainline agent at step `n` of `c`, the rest as in `s`. -/
def at_ (s : State) (c : Cmd) (n : Nat) : State := { s with cur := some c, sp := n }

/-- The next move, the rest as in `s`. -/
def pick (s : State) (m : Move) : State := { s with sched := [m] }

/-- The engine as a CONFIG at 115200 leaves it (V-G1). -/
def liveEngine : Engine :=
  { Engine.resetWith 0 with
    ctrla := { mode := 1, dord := 1, txpo := 0, rxpo := 1, sampr := 0, runstdby := false, other := 0 }
    ctrlb := { chsize := 0, txen := true, rxen := true, other := 0 }
    baud := 63019, enableApplied := true, intenRxc := true }

/-- The state a CONFIG with `C = 1` at 115200 leaves (V-G1), its history aside. -/
def live : State :=
  { State.reset with
    eng := liveEngine, seq := .enabled, active := true, cReg := true, rReg := 115200
    plat :=
      { txPinFn := .alternate 0, rxPinFn := .alternate 0, busClkOn := true, gclkRouted := true, lineUnmasked := true }
    rsp := some false }

/-- `live` with a byte in the holding register. -/
def sending : State := { live with eng := { liveEngine with txHold := some 0x48 } }

/-- `live` with a received byte waiting. -/
def waiting : State := { live with eng := { liveEngine with rxc := true, rxData := 0x41 } }

/-- `live` while its disable is synchronising. -/
def disabling : State := { live with eng := { liveEngine with pendEnable := some false, syncEnable := true } }

/-- `State.reset` while an engine reset is pending. -/
def resetting : State := { State.reset with eng := { Engine.resetWith 0 with swrstPending := true } }

/-- The state an answer gives, if it gives one. -/
def next? : Answer → Option State
  | .next t => some t
  | .fault _ => none
  | .refused _ => none

/-- The entries an answer appends to a log of `s`. -/
def entries (s : State) (a : Answer) : Option (List Event) := (next? a).map fun t => t.log.drop s.log.length

/-! ## Well-formedness: a term that each check refuses -/

/-- R88: "RXISR presented on the mainline port" is illegal. -/
theorem test_rxisr_not_on_mainline : Instr.rxisr.wellFormedOn .mainline = false := by decide

/-- R88, R91: the dispatch port carries only RXISR. -/
theorem test_mainline_not_on_dispatch : (Instr.config true 9600).wellFormedOn .dispatch = false := by decide

/-! ## Decoding (V-E) -/

theorem test_decode_config_largest : decode .mainline 0xFFFFFFFF13 = .ok (.config true 4294967295) := by decide
theorem test_decode_config_zero : decode .mainline 0x0000000003 = .ok (.config false 0) := by decide
theorem test_decode_wrblk_ff : decode .mainline 0x000000FF06 = .ok (.wrblk 0xFF) := by decide
theorem test_decode_all_ones : decode .mainline 0xFFFFFFFFFF = .error .nonzeroZ := by decide
theorem test_decode_z_on_config : decode .mainline 0x0001C20033 = .error .nonzeroZ := by decide
theorem test_decode_c_on_claim : decode .mainline 0x0000000011 = .error .strayC := by decide
theorem test_decode_data_on_rdyq : decode .mainline 0x0000000104 = .error .strayData := by decide
theorem test_decode_wide_byte : decode .mainline 0x8000004106 = .error .strayData := by decide
theorem test_decode_reserved : decode .mainline 0x000000000F = .error .reservedOp := by decide
theorem test_decode_dispatch_c : decode .dispatch 0x0000000017 = .error .notDispatchWord := by decide

/-! ## The assembler (R96, R97) -/

/-- R96: `config 1, 115200` is 0x0001C20013. -/
theorem test_assemble_config : assembleLine "config 1, 115200 ; comment".toList = some 0x0001C20013 := by decide

/-- R97: `write_blocking(b)` is `wrblk b`. -/
theorem test_assemble_alias : assembleLine "write_blocking(0x41)".toList = some 0x0000004106 := by decide

/-- R96: an operand out of range is no line. -/
theorem test_assemble_range : assembleLine "wrnb 256".toList = none := by decide

/-- R96: `rxisr` is "not assemblable for the mainline port". -/
theorem test_assemble_rxisr : assembleLine "rxisr".toList = none := by decide

/-! ## The divisor (V-F, V-D) -/

/-- W1 and V-D1: the golden divisor and its stages. -/
theorem test_divisor_golden :
    let d := (Datapath.reset 48000000).run 115200
    (d.t3, d.t2, d.t1, d.op1, d.dReg) = (27225, 111626, 55121, 2516, 63019) := by decide

/-- V-D18: the largest rate wraps. -/
theorem test_divisor_largest : baudDivisor 48000000 4294967295 = 22559 := by decide

/-- V-D29: the case in which the result is one above the ceiling law. -/
theorem test_divisor_case_b : baudDivisor 30164851 1489607 = 13755 := by decide

/-- V-D31: the widest `op1`, from the widest fragment. -/
theorem test_divisor_widest : ((Datapath.reset 1).run 4294967295).op1 = 4503599626321920 := by decide

/-- V-D3 and V-D14: the alternative definition rounds and clamps. -/
theorem test_reference_divisor :
    referenceDivisor 48000000 19200 = 65117 ∧ referenceDivisor 48000000 3000001 = 0 := by decide

/-! ## The commands, at most two each (V-C, V-G, V-X, V-I) -/

/-- V-C1: the log of CLAIM from reset. -/
theorem test_claim_log :
    entries State.reset (execTimes 4 .claim State.reset) =
      some [.cmd 1, .cap (.pinmux 0 (.alternate 0)), .cap (.pinmux 1 (.alternate 0)), .rsp false] := by decide

/-- V-C1: `active` is not yet set when both pins are routed. -/
theorem test_claim_active_last : (next? (exec .claim (at_ State.reset .claim 1))).map (·.active) = some false := by decide

/-- V-C3: RELEASE clears `active` before either pin. -/
theorem test_release_active_first :
    (next? (exec .release (at_ live .release 0))).map (fun t => (t.active, t.plat.txPinFn)) =
      some (false, .alternate 0) := by decide

/-- V-C5: RELEASE leaves the engine enabled. -/
theorem test_release_keeps_engine :
    (next? (execTimes 4 .release live)).map (fun t => (t.eng.enableApplied, t.seq, t.plat.rxPinFn)) =
      some (true, .enabled, .gpio) := by decide

/-- V-G3: S4 sees the disable synchronising and stays. -/
theorem test_config_waits :
    entries disabling (exec (.config true 9600) (at_ disabling .config 4)) =
      some [.rd (.syncbusyReset false true)] := by decide

/-- V-G5: the wrapped divisor of a rate out of the domain reaches `d_reg`, with no fault. -/
theorem test_config_wraps :
    (next? (exec (.config true 3000001) { at_ State.reset .config 14 with rReg := 3000001 })).map
      (fun t => (t.dp.dReg, t.faults)) = some (65535, []) := by decide

/-- V-X1: RDYQ answers 1 with the holding register empty. -/
theorem test_rdyq_ready :
    entries live (execTimes 2 .rdyq live) = some [.cmd 4, .rd (.intflagDre true), .rsp true] := by decide

/-- V-X2: RDYQ answers 0 with the holding register full. -/
theorem test_rdyq_full : (next? (execTimes 2 .rdyq sending)).map (·.rsp) = some (some false) := by decide

/-- V-X5: an unchecked write with the holding register full faults and keeps the earlier byte. -/
theorem test_wrnb_overrun :
    (next? (execTimes 2 (.wrnb 0x42) sending)).map (fun t => (t.faults, t.eng.txHold)) =
      some ([.txOverrun], some 0x48) := by decide

/-- V-X6: a write before any CONFIG. -/
theorem test_wrnb_disabled :
    entries State.reset (execTimes 2 (.wrnb 0x41) State.reset) =
      some [.cmd 0x4105, .wr (.data 0x41), .fault .txDisabled, .rsp false] := by decide

/-- V-X7: one poll suffices with the holding register empty. -/
theorem test_wrblk_ready :
    entries live (execTimes 3 (.wrblk 0x48) live) =
      some [.cmd 0x4806, .rd (.intflagDre true), .wr (.data 0x48), .rsp false] := by decide

/-- V-X8: a poll that reads 0 stays at B0. -/
theorem test_wrblk_polls : (next? (exec (.wrblk 0x69) (at_ sending .wrblk 0))).map (·.sp) = some 0 := by decide

/-- V-I1: one arrival is delivered once and lowers the request. -/
theorem test_rxisr_delivers :
    entries waiting (execTimes 4 .rxisr waiting) =
      some [.cmd 7, .rd (.intflagRxc true), .rd (.data 0x41), .deliver 0x41] := by decide

/-- V-I2: with `RXC = 0` there is no dispatch. -/
theorem test_rxisr_not_requested : next? (exec .rxisr live) = some live := by decide

/-- W5: the bound callback is invoked with the byte; the default callback does nothing (R146). -/
theorem test_callback :
    ({ live with params := { Params.default with callback := .hostFunction 3 } }.deliver 0x41).hostState =
        Config.callbackEffect 3 0x41 0 ∧
      (live.deliver 0x41).hostState = 0 := ⟨rfl, rfl⟩

/-! ## The engine and the line (V-I3, 60_exceptions.md) -/

/-- V-I3: a second arrival while one waits is lost. -/
theorem test_line_overflow :
    (next? (runMove .line { waiting with lineBytes := [0x42] })).map (fun t => (t.eng.rxData, t.faults)) =
      some (0x41, [.rxOverflow]) := by decide

/-- R68: an enable write while one is synchronising is ignored with a fault. -/
theorem test_sync_violation : (disabling.writeEnable true).faults = [.syncViolation] := by decide

/-- R81: a BAUD write to an enabled engine is ignored with a fault. -/
theorem test_protected_write :
    ((live.writeBaud 1).faults, (live.writeBaud 1).eng.baud) = ([.protectedWrite], 63019) := by decide

/-- R70, R161: a whole CTRLA write whose `SWRST` meets the synchronisation of its own `ENABLE` is ignored with one fault. -/
theorem test_ctrla_write_ignored :
    (let t := State.reset.writeCtrla { fields := (modeFraming Params.default).fields, enable := true, swrst := true };
      (t.faults, t.eng)) = ([.syncViolation], State.reset.eng) := by decide

/-- R80: a BAUD write during an engine reset. -/
theorem test_reset_access : (resetting.writeBaud 1).faults = [.resetAccess] := by decide

/-- R77: a `DATA` read with nothing received. -/
theorem test_empty_read : live.readData.2.faults = [.rxEmptyRead] := by decide

/-- R28, R152: `faults` is a set, kept in the order of the codes. -/
theorem test_fault_codes : FaultName.all.map FaultName.code = [1, 2, 3, 4, 5, 6, 7, 8] := by decide

/-! ## The host's view of the opcode table -/

/-- The table's row `rxisr` ("dispatch only") and a row of the mainline port are decoded. -/
theorem test_table_words :
    decodeTableWord 40 7 = some .rxisr ∧ decodeTableWord 40 0x1C20013 = some (.config true 115200) ∧
      decodeTableWord 40 8 = none := by decide

/-- A placed word runs as the first command after reset: CLAIM is accepted. -/
theorem test_placed_claim :
    (next? (step (State.reset.withFetchWord 40 1))).map (fun t => (t.cur, t.log)) = some (some .claim, [.cmd 1]) := by
  decide

/-- A placed RXISR is dispatched. -/
theorem test_placed_rxisr :
    (next? (step (State.reset.withFetchWord 40 7))).map (fun t => (t.isrSp, t.log)) = some (some .i0, [.cmd 7]) := by
  decide

/-! ## Witnesses: for each obligation with hypotheses, something that meets them, clause by clause

First the invariant, on the states the witnesses use. -/

/-- The parts of the invariant that no command's progress touches, and the canonical empty fault set. -/
theorem inv_of {s : State} (pins : s.PinsOwned) (sync : s.SyncAgree) (command : s.commandPhase s.cur s.sp)
    (isr : s.isrPhase s.isrSp) (fragments : s.FragmentsLoaded) (faults : s.faults = []) : s.Inv :=
  ⟨pins, sync, command, isr, fragments, by simp [State.NoInternalFault, faults], ⟨fun _ => false, by rw [faults]; rfl⟩⟩

theorem inv_reset : State.reset.Inv := inv_of (by decide) (by decide) ⟨rfl, rfl, rfl⟩ trivial (by decide) rfl

theorem inv_live : live.Inv := inv_of (by decide) (by decide) ⟨rfl, rfl, rfl⟩ trivial (by decide) rfl

theorem inv_sending : sending.Inv := inv_of (by decide) (by decide) ⟨rfl, rfl, rfl⟩ trivial (by decide) rfl

/-! ### Command words -/

theorem witness_DecodeUndoesEncode :
    (Instr.config true 4294967295).wellFormedOn .mainline = true ∧ Instr.rxisr.wellFormedOn .dispatch = true := by
  decide

theorem witness_EncodeUndoesDecode :
    decode .mainline 0xFFFFFFFF13 = .ok (.config true 4294967295) ∧ decode .dispatch 7 = .ok .rxisr := by decide

theorem witness_LegalWords :
    (∀ i, decode .mainline 0 ≠ .ok i) ∧ (∀ i, decode .mainline 7 ≠ .ok i) ∧ ∀ i, decode .dispatch 1 ≠ .ok i := by
  refine ⟨?_, ?_, ?_⟩ <;> intro i h
  · rw [show decode .mainline 0 = .error .reservedOp by decide] at h; cases h
  · rw [show decode .mainline 7 = .error .rxisrOnMainline by decide] at h; cases h
  · rw [show decode .dispatch 1 = .error .notDispatchWord by decide] at h; cases h

/-! ### Running a command -/

theorem witness_StepRunsDecodedCommand :
    (let s := { State.reset with hostWords := [0xFFFFFFFF13] };
      s.params.sysClkHz ≠ 0 ∧ s.nextMove = .host ∧ s.idle ∧ s.hostWords = [0xFFFFFFFF13] ∧
        decode .mainline 0xFFFFFFFF13 = .ok (.config true 4294967295)) ∧
    (let s := at_ State.reset .claim 0;
      s.params.sysClkHz ≠ 0 ∧ s.nextMove = .mainline ∧ s.cur = some .claim) ∧
    (waiting.params.sysClkHz ≠ 0 ∧ waiting.nextMove = .isr) ∧
    (State.reset.params.sysClkHz ≠ 0 ∧ decodeTableWord 40 7 = some .rxisr ∧ decodeTableWord 8 1 = some .claim) := by
  decide

theorem witness_AcceptanceLatchesOperands : State.reset.idle := by decide

theorem witness_BusyPortTakesNothing :
    (Instr.claim ≠ .rxisr ∧ { State.reset with isrSp := some .i2 }.isrSp ≠ none) ∧
    (cmdOf .claim = some .claim ∧ (at_ State.reset .wrblk 0).cur = some .wrblk ∧ Cmd.claim ≠ .wrblk) ∧
    ¬ (at_ State.reset .wrblk 0).idle ∧ ¬ { State.reset with isrSp := some .i0 }.idle := by decide

theorem witness_SequencePointerNeverDecreases :
    (∃ t, step (at_ State.reset .claim 0) = .next t ∧ (at_ State.reset .claim 0).cur = some .claim ∧
      t.cur = some .claim) ∧
    ∃ t, State.reset.Inv ∧ step { State.reset with hostWords := [1] } = .next t ∧ t.cur = some .claim :=
  ⟨⟨_, rfl, rfl, rfl⟩, _, inv_reset, rfl, rfl⟩

theorem witness_EveryStepAnswers :
    (State.resetWith { Params.default with sysClkHz := 0 }).params.sysClkHz = 0 ∧
      State.reset.params.sysClkHz ≠ 0 ∧ State.reset.Inv := ⟨rfl, by decide, inv_reset⟩

theorem witness_QuiescentRunEnds :
    (State.reset.params.sysClkHz ≠ 0 ∧ State.reset.quiescent = true ∧ State.reset.sched = [] ∧
      State.reset.lineBytes = [] ∧ State.reset.dispatchReady = false) ∧
    (waiting.params.sysClkHz ≠ 0 ∧ waiting.quiescent = true ∧ waiting.sched = [] ∧ waiting.lineBytes = [] ∧
      waiting.dispatchReady = true) ∧
    disabling.quiescent = false := by decide

theorem witness_LogAndFaultsOnlyRecord : ∃ t, step { State.reset with hostWords := [8] } = .next t := ⟨_, rfl⟩

theorem witness_FragmentsLoadedOnce :
    Params.default.sysClkHz ≠ 0 ∧ (1 : BitVec 32) ≠ 0 ∧ Params.default.sysClkHz = 48000000 ∧
      ∃ t, step State.reset = .next t := ⟨by decide, by decide, rfl, _, rfl⟩

/-! ### Reset and pins -/

theorem witness_ResetState :
    Move.host.enabled { State.resetWith Params.default with hostWords := [1], lineBytes := [0x41] } = true := by decide

theorem witness_TwoResets :
    resetting.eng.swrstPending = true ∧ live.eng.swrstPending = false ∧
      (live.Quiet ∧ live.eng.syncEnable = false ∧ live.eng.enableApplied = true) := by decide

theorem witness_ClaimSequence :
    (at_ State.reset .claim 0).standsAt .claim 0 ∧ (at_ State.reset .claim 1).standsAt .claim 1 ∧
      (at_ State.reset .claim 2).standsAt .claim 2 ∧ State.reset.idle := by decide

theorem witness_ReleaseSequence :
    (at_ live .release 0).standsAt .release 0 ∧ (at_ live .release 1).standsAt .release 1 ∧
      (at_ live .release 2).standsAt .release 2 ∧ live.idle := by decide

theorem witness_PinRoundTrip : State.reset.idle ∧ live.idle := by decide

/-- The invariant in the middle of a CLAIM, both pins routed. -/
theorem inv_claim_two :
    (at_ { State.reset with plat := { live.plat with lineUnmasked := false } } .claim 2).Inv :=
  inv_of (by decide) (by decide) ⟨by decide, ⟨rfl, rfl, rfl⟩, rfl, rfl⟩ trivial (by decide) rfl

theorem inv_release_zero : (at_ live .release 0).Inv :=
  inv_of (by decide) (by decide) ⟨by decide, ⟨rfl, rfl, rfl⟩, trivial⟩ trivial (by decide) rfl

theorem witness_ActiveFlagWriters :
    ((at_ State.reset .claim 2).standsAt .claim 2 ∧ (at_ State.reset .config 10).standsAt .config 10 ∧
      (at_ live .release 0).standsAt .release 0) ∧
    (∃ s t : State, s.Inv ∧ step s = .next t ∧ t.active ≠ s.active ∧ t.active = true) ∧
    ∃ s t : State, s.Inv ∧ step s = .next t ∧ t.active ≠ s.active ∧ t.active = false :=
  ⟨by decide, ⟨_, _, inv_claim_two, rfl, by decide, rfl⟩, _, _, inv_release_zero, rfl, by decide, rfl⟩

theorem witness_PlatformWriters :
    (∃ t, step (at_ State.reset .claim 0) = .next t ∧ t.plat.txPinFn ≠ State.reset.plat.txPinFn) ∧
    (∃ t, step (at_ State.reset .claim 1) = .next t ∧ t.plat.rxPinFn ≠ State.reset.plat.rxPinFn) ∧
    (∃ t, step (at_ State.reset .config 11) = .next t ∧ t.plat.busClkOn ≠ State.reset.plat.busClkOn) ∧
    (∃ t, step (at_ State.reset .config 12) = .next t ∧ t.plat.gclkRouted ≠ State.reset.plat.gclkRouted) ∧
    (∃ t, step (at_ State.reset .config 19) = .next t ∧ t.plat.lineUnmasked ≠ State.reset.plat.lineUnmasked) ∧
    (∃ t, step (at_ State.reset .config 18) = .next t ∧ t.eng.intenRxc ≠ State.reset.eng.intenRxc) ∧
    ∃ t, step (pick { resetting with eng := { resetting.eng with intenRxc := true } } .engSwrstDone) = .next t ∧
      t.eng.intenRxc ≠ true :=
  ⟨⟨_, rfl, by decide⟩, ⟨_, rfl, by decide⟩, ⟨_, rfl, by decide⟩, ⟨_, rfl, by decide⟩, ⟨_, rfl, by decide⟩,
    ⟨_, rfl, by decide⟩, _, rfl, by decide⟩

theorem witness_EngineIgnoresPlatform :
    Move.line ∈ [Move.engSyncEnable, .engSyncCtrlb, .engSwrstDone, .engTx, .line] ∧
      ∃ t, runMove .mainline (at_ State.reset .config 11) = .next t := ⟨by decide, _, rfl⟩

/-! ### CONFIG -/

theorem witness_ConfigDisablesAndResets :
    (at_ State.reset .config 0).standsAt .config 0 ∧ State.reset.eng.swrstPending = false ∧
    State.reset.eng.syncEnable = false ∧ (at_ disabling .config 0).standsAt .config 0 ∧
    disabling.eng.swrstPending = false ∧ disabling.eng.syncEnable = true ∧
    ∀ n ∈ [1, 2, 3, 4, 5, 6], (at_ State.reset .config n).standsAt .config n := by decide

theorem witness_ConfigClaimsAndRoutes :
    ∀ n ∈ [7, 8, 9, 10, 11, 12, 19], (at_ State.reset .config n).standsAt .config n := by decide

theorem witness_ConfigProgramsEngine :
    State.reset.Off ∧ State.reset.eng.syncCtrlb = false ∧ State.reset.FragmentsLoaded ∧
      ∀ n ∈ [13, 14, 15, 16, 18], (at_ State.reset .config n).standsAt .config n := by decide

theorem witness_ConfigEnablesAndAnswers :
    (∀ n ∈ [17, 20, 21, 22], (at_ State.reset .config n).standsAt .config n) ∧
      State.reset.eng.swrstPending = false ∧ State.reset.eng.syncEnable = false := by decide

/-- A CONFIG of a disabled engine with the pins claimed, and of an enabled one, with a byte still to send, without. -/
theorem witness_ConfigRunCompletes :
    (let s :=
        { State.reset with hostWords := [encode (.config true 115200)], sched := configMoves false true };
      s.params.sysClkHz ≠ 0 ∧ s.Inv ∧ s.idle ∧ s.hostWords = encode (.config true 115200) :: [] ∧
        s.sched = configMoves s.eng.enableApplied true ++ []) ∧
    (let s := { sending with hostWords := [encode (.config false 0)], sched := configMoves true false };
      s.params.sysClkHz ≠ 0 ∧ s.Inv ∧ s.idle ∧ s.hostWords = encode (.config false 0) :: [] ∧
        s.sched = configMoves s.eng.enableApplied false ++ []) :=
  ⟨⟨by decide, inv_of (by decide) (by decide) ⟨rfl, rfl, rfl⟩ trivial (by decide) rfl, by decide, rfl, rfl⟩,
    by decide, inv_of (by decide) (by decide) ⟨rfl, rfl, rfl⟩ trivial (by decide) rfl, by decide, rfl, rfl⟩

theorem inv_config_end : (at_ live .config 22).Inv :=
  inv_of (by decide) (by decide)
    ⟨⟨rfl, by decide, rfl, rfl⟩, rfl, ⟨fun _ => rfl, rfl, rfl⟩, ⟨rfl, rfl⟩, rfl, rfl, rfl, rfl⟩ trivial (by decide) rfl

theorem witness_ConfigAnswersWhenLive :
    ∃ s t : State, s.Inv ∧ step s = .next t ∧ s.cur = some .config ∧ t.cur = none ∧ t.cReg = true :=
  ⟨_, _, inv_config_end, rfl, rfl, rfl, rfl⟩

theorem inv_config_five : (at_ { State.reset with seq := .resetting } .config 5).Inv :=
  inv_of (by decide) (by decide) ⟨⟨⟨rfl, rfl, rfl⟩, rfl⟩, rfl⟩ trivial (by decide) rfl

theorem inv_config_zero : (at_ live .config 0).Inv :=
  inv_of (by decide) (by decide) ⟨rfl, rfl, rfl⟩ trivial (by decide) rfl

theorem witness_ResetTriggerNeverSkipped :
    (∃ s t : State, s.Inv ∧ step s = .next t ∧ s.cur = some .config ∧ s.sp = 5) ∧
      ∃ s t : State, s.Inv ∧ step s = .next t ∧ s.cur = some .config ∧ s.sp = 0 :=
  ⟨⟨_, _, inv_config_five, rfl, rfl, rfl⟩, _, _, inv_config_zero, rfl, rfl, rfl⟩

theorem witness_SeqWrittenOnlyByConfig :
    (∃ t, step (at_ live .config 0) = .next t ∧ t.seq ≠ live.seq) ∧
    (∃ t, step (at_ live .config 4) = .next t ∧ t.seq ≠ live.seq) ∧
    (∃ t, step (at_ live .config 7) = .next t ∧ t.seq ≠ live.seq) ∧
    ∃ t, step (at_ State.reset .config 20) = .next t ∧ t.seq ≠ State.reset.seq :=
  ⟨⟨_, rfl, by decide⟩, ⟨_, rfl, by decide⟩, ⟨_, rfl, by decide⟩, _, rfl, by decide⟩

/-! ### The divisor -/

/-- The smallest and the largest clock are legal (StagesExact, DatapathNeverOverflows, ClosedForm). -/
theorem witness_StagesExact : (1 : BitVec 32) ≠ 0 ∧ (4294967295 : BitVec 32) ≠ 0 := by decide

theorem witness_DatapathNeverOverflows : (1 : BitVec 32) ≠ 0 ∧ 1 ≤ (1 : BitVec 32).toNat := by decide

theorem witness_ClosedForm : (1 : BitVec 32) ≠ 0 ∧ (4294967295 : BitVec 32) ≠ 0 := by decide

theorem not_power_of_two {n m : Nat} (h : 2 ^ m < n) (h' : n < 2 ^ (m + 1)) : ∀ k, n ≠ 2 ^ k := by
  rintro k rfl
  have h1 := (Nat.pow_lt_pow_iff_right (by decide : 1 < 2)).1 h
  have h2 := (Nat.pow_lt_pow_iff_right (by decide : 1 < 2)).1 h'
  omega

theorem witness_DivisorWraps :
    (48000000 : BitVec 32) ≠ 0 ∧ 65535 < ((Datapath.reset 48000000).run 3000001).op1.toNat ∧
    (16 * (3000000 : BitVec 32).toNat = (48000000 : BitVec 32).toNat ∧
      ∀ k, (48000000 : BitVec 32).toNat ≠ 2 ^ k) ∧
    (at_ State.reset .config 14).standsAt .config 14 :=
  ⟨by decide, by decide, ⟨by decide, not_power_of_two (m := 25) (by decide) (by decide)⟩, by decide⟩

theorem case_b : (1489607 : BitVec 32).toNat = 1489607 ∧ (30164851 : BitVec 32).toNat = 30164851 := ⟨rfl, rfl⟩

theorem case_b_floor : ⌊(((1489607 : ℕ) : ℚ) * 2 ^ 20 / ((30164851 : ℕ) : ℚ))⌋ = 51781 := by
  rw [Int.floor_eq_iff]; norm_num

theorem case_c : (46875 : BitVec 32).toNat = 46875 ∧ (48000000 : BitVec 32).toNat = 48000000 := ⟨rfl, rfl⟩

/-- Case (a), a power of two, and a rate at which neither the loss nor the fraction is 0. -/
theorem witness_AccuracyCases :
    (∃ (f r : BitVec 32) (x δ : ℚ), f ≠ 0 ∧ x = r.toNat * 2 ^ 20 / f.toNat ∧
      δ = r.toNat * ((2 ^ 62 % f.toNat : ℕ) : ℚ) / (f.toNat * 2 ^ 42) ∧ δ = 0) ∧
    (∃ (f r : BitVec 32) (x δ : ℚ), f ≠ 0 ∧ x = r.toNat * 2 ^ 20 / f.toNat ∧
      δ = r.toNat * ((2 ^ 62 % f.toNat : ℕ) : ℚ) / (f.toNat * 2 ^ 42) ∧ 0 < δ ∧ 0 < Int.fract x ∧ Int.fract x < δ) ∧
    ∃ (f r : BitVec 32) (x δ : ℚ), f ≠ 0 ∧ x = r.toNat * 2 ^ 20 / f.toNat ∧
      δ = r.toNat * ((2 ^ 62 % f.toNat : ℕ) : ℚ) / (f.toNat * 2 ^ 42) ∧ 0 < δ ∧ Int.fract x = 0 := by
  refine ⟨⟨1048576, 1, _, _, by decide, rfl, rfl, ?_⟩, ⟨30164851, 1489607, _, _, by decide, rfl, rfl, ?_, ?_, ?_⟩,
    48000000, 46875, _, _, by decide, rfl, rfl, ?_, ?_⟩
  · norm_num
  · rw [case_b.1, case_b.2]; norm_num
  · rw [case_b.1, case_b.2, Int.fract, case_b_floor]; norm_num
  · rw [case_b.1, case_b.2, Int.fract, case_b_floor]; norm_num
  · rw [case_c.1, case_c.2]; norm_num
  · rw [case_c.1, case_c.2, show ((46875 : ℕ) * 2 ^ 20 / (48000000 : ℕ) : ℚ) = (1024 : ℤ) by norm_num, Int.fract_intCast]

theorem witness_ExactAtListedClocks :
    (48000000 : BitVec 32) ∈ ([48000000, 1000000] : List (BitVec 32)) ∧ 1 ≤ (1 : BitVec 32).toNat ∧
      16 * (2999999 : BitVec 32).toNat < (48000000 : BitVec 32).toNat := by decide

theorem domain_end :
    (((3000000 : BitVec 32).toNat : ℚ) * 2 ^ 20 / ((48000000 : BitVec 32).toNat : ℚ)) = (65536 : ℤ) := by
  rw [show (3000000 : BitVec 32).toNat = 3000000 from rfl, show (48000000 : BitVec 32).toNat = 48000000 from rfl]
  norm_num

/-- V-D13: the largest rate of the domain, where the quotient is an integer; and the reference mode at S14. -/
theorem witness_ReferenceDivisor :
    (∃ (f r : BitVec 32) (x : ℚ), f ≠ 0 ∧ 1 ≤ r.toNat ∧ 16 * r.toNat ≤ f.toNat ∧ x = r.toNat * 2 ^ 20 / f.toNat ∧
      (((Datapath.reset f).run r).op1.toNat : ℤ) = ⌈x⌉ - 1 ∧ Int.fract x = 0) ∧
    (let s := at_ (State.resetWith { Params.default with divisorMode := .referenceRound }) .config 14;
      s.standsAt .config 14 ∧ s.params.divisorMode = .referenceRound) := by
  refine ⟨⟨48000000, 3000000, _, by decide, by decide, by decide, rfl, ?_, ?_⟩, by decide⟩
  · rw [show (((Datapath.reset 48000000).run 3000000).op1.toNat : ℤ) = 65535 by decide, domain_end, Int.ceil_intCast]
    norm_num
  · rw [domain_end, Int.fract_intCast]

/-! ### Byte exchange -/

theorem witness_RdyqAnswersDre :
    live.eng.swrstPending = false ∧ (at_ live .rdyq 0).standsAt .rdyq 0 ∧
    (live.eng.enableApplied = true ∧ live.eng.syncEnable = false ∧ live.eng.ctrlb.txen = true) ∧
    ¬ (disabling.eng.enableApplied = true ∧ disabling.eng.syncEnable = false ∧ disabling.eng.ctrlb.txen = true) ∧
    live.idle ∧ live.TxReady := by decide

theorem witness_WrnbWrites :
    live.eng.swrstPending = false ∧ (at_ live .wrnb 0).standsAt .wrnb 0 ∧ State.reset.eng.transmitterOn = false ∧
    (sending.eng.transmitterOn = true ∧ sending.eng.txHold ≠ none) ∧
    (live.eng.transmitterOn = true ∧ live.eng.txHold = none) := by decide

theorem witness_WrblkPollsThenWrites :
    live.eng.swrstPending = false ∧ (at_ live .wrblk 0).standsAt .wrblk 0 ∧ live.eng.transmitterOn = true ∧
    State.reset.eng.transmitterOn = false ∧ (at_ live .wrblk 1).standsAt .wrblk 1 ∧ live.eng.txHold = none ∧
    sending.eng.txHold ≠ none ∧ sending.eng.transmitterOn = true ∧ sending.eng.txHold = some 0x48 ∧
    (at_ sending .wrblk 0).bReg = 0 := by decide

theorem witness_WrblkExpansion :
    State.reset.idle ∧ (at_ State.reset .wrblk 0).standsAt .wrblk 0 ∧ (at_ State.reset .wrblk 0).bReg = 0 ∧
    State.reset.eng.swrstPending = false ∧ SameTransactions State.reset (at_ State.reset .wrblk 0) ∧
    SameTransactions sending (at_ sending .wrblk 0) := by decide

theorem inv_wrnb : (at_ live .wrnb 0).Inv := inv_of (by decide) (by decide) ⟨rfl, rfl, rfl, rfl⟩ trivial (by decide) rfl

theorem witness_WriteAfterReadyIsSafe :
    (∃ t, live.Quiet ∧ live.eng.syncEnable = false ∧ live.eng.enableApplied = true ∧ live.eng.ctrlb.txen = true ∧
      (at_ live .rdyq 0).standsAt .rdyq 0 ∧ exec .rdyq (at_ live .rdyq 0) = .next t ∧ t.rsp = some true) ∧
    (∃ s t : State, s.Inv ∧ s.AwaitingWrite 0 ∧ step s = .next t ∧ t.cur = none) ∧
    ∃ s t : State, s.Inv ∧ s.AwaitingWrite 0x69 ∧ step s = .next t ∧ t.cur = some .wrnb :=
  ⟨⟨_, by decide, rfl, rfl, rfl, by decide, rfl, rfl⟩, ⟨_, _, inv_wrnb, by decide, rfl, rfl⟩,
    { live with hostWords := [encode (.wrnb 0x69)] }, _,
    inv_of (by decide) (by decide) ⟨rfl, rfl, rfl⟩ trivial (by decide) rfl, by decide, rfl, rfl⟩

/-- A schedule that asks the weakly fair moves in turn is fair, whatever the state. -/
theorem round_robin_fair : ∃ σ : Nat → Move, ∀ s, WeaklyFair σ s := by
  refine ⟨fun n => fairMoves.getD (n % 6) .mainline, fun s m hm n => ?_⟩
  have key : ∀ j, j < 6 → fairMoves.getD ((6 * n + j) % 6) .mainline = fairMoves.getD j .mainline := fun j hj => by
    rw [Nat.mul_add_mod, Nat.mod_eq_of_lt hj]
  have hj : ∃ j, j < 6 ∧ fairMoves.getD j .mainline = m := by
    simp only [fairMoves, List.mem_cons, List.not_mem_nil, or_false] at hm
    rcases hm with rfl | rfl | rfl | rfl | rfl | rfl
    exacts [⟨0, by decide, rfl⟩, ⟨1, by decide, rfl⟩, ⟨2, by decide, rfl⟩, ⟨3, by decide, rfl⟩, ⟨4, by decide, rfl⟩,
      ⟨5, by decide, rfl⟩]
  obtain ⟨j, hj, hm⟩ := hj
  exact ⟨6 * n + j, by omega, .inl ((key j hj).trans hm)⟩

theorem witness_WrblkTerminates :
    ∃ (σ : Nat → Move) (s : State), s.Inv ∧ WeaklyFair σ s ∧ s.cur = some .wrblk ∧ s.eng.transmitterOn = true ∧
      s.eng.txHold = some 0x48 := by
  obtain ⟨σ, h⟩ := round_robin_fair
  exact ⟨σ, at_ sending .wrblk 0,
    inv_of (by decide) (by decide) ⟨⟨rfl, rfl, rfl⟩, .inl rfl⟩ trivial (by decide) rfl, h _, rfl, rfl, rfl⟩

/-! ### The interrupt -/

theorem witness_RxisrSequence :
    { waiting with isrSp := some .i0 }.isrSp = some .i0 ∧ waiting.eng.swrstPending = false ∧ waiting.eng.rxc = true ∧
    live.eng.rxc = false ∧ { waiting with isrSp := some .i1 }.isrSp = some .i1 ∧
    { live with isrSp := some .i2 }.isrSp = some .i2 ∧ waiting.dispatchReady = true := by decide

theorem witness_InterruptEntry :
    waiting.isrSp = none ∧
    (waiting.eng.rxc = true ∧ waiting.eng.intenRxc = true ∧ waiting.eng.swrstPending = false ∧
      waiting.plat.lineUnmasked = true) ∧
    ¬ (live.eng.rxc = true ∧ live.eng.intenRxc = true ∧ live.eng.swrstPending = false ∧
      live.plat.lineUnmasked = true) := by decide

theorem inv_isr_zero : { waiting with isrSp := some .i0 }.Inv :=
  inv_of (by decide) (by decide) ⟨rfl, rfl, rfl⟩ ⟨rfl, rfl⟩ (by decide) rfl

theorem inv_isr_one : { waiting with isrSp := some .i1, isrF := true }.Inv :=
  inv_of (by decide) (by decide) ⟨rfl, rfl, rfl⟩ ⟨rfl, rfl, rfl⟩ (by decide) rfl

theorem inv_waiting : waiting.Inv := inv_of (by decide) (by decide) ⟨rfl, rfl, rfl⟩ trivial (by decide) rfl

theorem witness_RxisrTakesMainPath :
    (∃ t, waiting.Inv ∧ step waiting = .next t ∧ waiting.isrSp = none ∧ t.isrSp ≠ none) ∧
    (∃ s t : State, s.Inv ∧ step s = .next t ∧ s.eng.rxc = true ∧ t.eng.rxc = false) ∧
    (∃ s : State, s.Inv ∧ s.isrSp = some .i0) ∧ (∃ s : State, s.Inv ∧ s.isrSp = some .i1) ∧
    ∃ s t : State, s.Inv ∧ step s = .next t ∧ s.isrSp = some .i0 ∧ s.nextMove ≠ .isr :=
  ⟨⟨_, inv_waiting, rfl, rfl, by decide⟩, ⟨_, _, inv_isr_one, rfl, rfl, rfl⟩, ⟨_, inv_isr_zero, rfl⟩,
    ⟨_, inv_isr_one, rfl⟩, pick { waiting with isrSp := some .i0 } .line, _,
    inv_of (by decide) (by decide) ⟨rfl, rfl, rfl⟩ ⟨rfl, rfl⟩ (by decide) rfl, rfl, rfl, by decide⟩

theorem witness_NoRequestWithoutArrival :
    (∃ t, step { live with lineBytes := [0x41] } = .next t ∧ live.eng.rxc = false ∧ t.eng.rxc = true) ∧
    (∃ t, step live = .next t ∧ live.isrSp = none) ∧
    ∃ t, { waiting with isrSp := some .i1 }.isrSp = some .i1 ∧ exec .rxisr { waiting with isrSp := some .i1 } = .next t :=
  ⟨⟨_, rfl, rfl, rfl⟩, ⟨_, rfl, rfl⟩, _, rfl, rfl⟩

/-- `live` after one byte came and was delivered, with the next arriving. -/
def secondArrival : State :=
  { pick live .line with log := [.wireRx 0x41, .deliver 0x41], lineBytes := [0x42] }

theorem secondArrival_deliveredBeforeNext : DeliveredBeforeNext secondArrival.log := by
  intro before after b h
  rcases before with _ | ⟨_, _ | ⟨_, _⟩⟩ <;> simp_all [secondArrival, received, delivered]

theorem witness_ExactlyOnceDelivery :
    (∃ s t : State, s.Inv ∧ s.ReceivedInOrder ∧ step s = .next t ∧ FaultName.rxOverflow ∉ t.faults ∧
      ¬ (s.nextMove = .engSwrstDone ∧ s.eng.swrstPending = true ∧ s.eng.rxc = true) ∧ received s.log = [0x41]) ∧
    (∃ s t : State, s.Inv ∧ s.ReceivedInOrder ∧ step s = .next t ∧ DeliveredBeforeNext s.log ∧
      (s.nextMove = .line → s.eng.rxc = false ∧ s.isrSp ≠ some .i2) ∧ received t.log = [0x41, 0x42]) ∧
    (let s := { live with isrSp := some .i2, isrByte := 0x41, lineBytes := [0x42] };
      s.isrSp = some .i2 ∧ s.eng.rxc = false ∧ s.eng.rxReady = true ∧ s.eng.intenRxc = true ∧
        s.plat.lineUnmasked = true ∧ s.lineBytes = [0x42]) :=
  ⟨⟨{ waiting with log := [.wireRx 0x41], isrSp := some .i0 }, _,
      inv_of (by decide) (by decide) ⟨rfl, rfl, rfl⟩ ⟨rfl, rfl⟩ (by decide) rfl, by decide, rfl, by decide, by decide,
      by decide⟩,
    ⟨secondArrival, _, inv_of (by decide) (by decide) ⟨rfl, rfl, rfl⟩ trivial (by decide) rfl, by decide, rfl,
      secondArrival_deliveredBeforeNext, by decide, by decide⟩,
    by decide⟩

theorem witness_IsrCommutesWithByteExchange :
    (∃ u, waiting.dispatchReady = true ∧ exec .rdyq (at_ waiting .rdyq 0) = .next u) ∧
    (∃ u, exec (.wrnb 0x69) (at_ waiting .wrnb 0) = .next u) ∧
    ∃ u, exec (.wrblk 0x69) (at_ waiting .wrblk 0) = .next u := ⟨⟨_, by decide, rfl⟩, ⟨_, rfl⟩, _, rfl⟩

/-! ### Frames -/

theorem witness_PinAndConfigFrames :
    (∃ t, exec .claim (at_ State.reset .claim 2) = .next t) ∧ (∃ t, exec .release (at_ live .release 0) = .next t) ∧
      ∃ t, exec (.config true 9600) (at_ State.reset .config 13) = .next t := ⟨⟨_, rfl⟩, ⟨_, rfl⟩, _, rfl⟩

theorem witness_ByteExchangeFrame :
    (∃ t, exec .rdyq (at_ live .rdyq 0) = .next t) ∧ (∃ t, exec (.wrnb 1) (at_ live .wrnb 0) = .next t) ∧
      ∃ t, exec (.wrblk 1) (at_ live .wrblk 1) = .next t := ⟨⟨_, rfl⟩, ⟨_, rfl⟩, _, rfl⟩

theorem witness_RxisrFrame :
    (∃ t, exec .rxisr { waiting with isrSp := some .i0 } = .next t ∧ t.eng.rxc = true) ∧
    (∃ t, exec .rxisr { live with isrSp := some .i2 } = .next t) ∧ live.params.callback = .noop :=
  ⟨⟨_, rfl, rfl⟩, ⟨_, rfl⟩, rfl⟩

/-! ### The engine -/

theorem witness_SynchronisedWrites :
    State.reset.eng.swrstPending = false ∧ State.reset.eng.syncEnable = false ∧ State.reset.eng.syncCtrlb = false ∧
    State.reset.eng.enableApplied = false ∧ State.reset.eng.pendEnable = none ∧ disabling.eng.swrstPending = false ∧
    disabling.eng.syncEnable = true ∧
    (let e := { Engine.resetWith 0 with pendCtrlb := some frameControl, syncCtrlb := true };
      e.swrstPending = false ∧ e.enableApplied = false ∧ e.pendEnable = none ∧ e.syncCtrlb = true) := by decide

theorem witness_SynchronisationCompletes :
    (disabling.eng.pendEnable = some false ∧ disabling.eng.txHold = none) ∧
    (let e := { liveEngine with pendEnable := some false, syncEnable := true, txHold := some 0x55 };
      e.pendEnable = some false ∧ e.txHold = some 0x55) ∧
    { Engine.resetWith 0 with pendCtrlb := some frameControl, syncCtrlb := true }.pendCtrlb = some frameControl ∧
    { Engine.resetWith 0 with pendEnable := some true, syncEnable := true }.pendEnable = some true ∧
    State.reset.eng.pendEnable = none ∧ State.reset.eng.pendCtrlb = none := by decide

/-- A CONFIG whose disable is synchronising. -/
theorem inv_disabling : (at_ { disabling with seq := .disabled } .config 4).Inv :=
  inv_of (by decide) (by decide) ⟨.inl rfl, rfl, rfl, .inl rfl⟩ trivial (by decide) rfl

/-- A CONFIG whose engine reset is pending. -/
theorem inv_resetting : (at_ { resetting with seq := .resetting } .config 6).Inv :=
  inv_of (by decide) (by decide) ⟨⟨rfl, rfl⟩, rfl, rfl, .inl rfl⟩ trivial (by decide) rfl

/-- A CONFIG whose CTRLB write is synchronising. -/
def controlling : State :=
  { live with
    cur := some .config, sp := 17, seq := .configuring
    eng :=
      { liveEngine with
        enableApplied := false, ctrlb := Ctrlb.reset, intenRxc := false, pendCtrlb := some frameControl, syncCtrlb := true } }

theorem inv_controlling : controlling.Inv :=
  inv_of (by decide) (by decide)
    ⟨⟨rfl, by decide, rfl, rfl⟩, rfl, ⟨fun _ => rfl, rfl, rfl⟩, ⟨rfl, rfl⟩, .inl rfl⟩ trivial (by decide) rfl

theorem witness_FairEngineCompletes :
    ∃ σ : Nat → Move,
      (∃ s : State, s.Inv ∧ WeaklyFair σ s ∧ s.eng.pendEnable.isSome = true) ∧
      (∃ s : State, s.Inv ∧ WeaklyFair σ s ∧ s.eng.pendCtrlb.isSome = true) ∧
      (∃ s : State, s.Inv ∧ WeaklyFair σ s ∧ s.eng.swrstPending = true) ∧
      ∃ s : State, s.Inv ∧ WeaklyFair σ s ∧ s.eng.txHold.isSome = true ∧ s.eng.enableApplied = true ∧
        s.eng.ctrlb.txen = true := by
  obtain ⟨σ, h⟩ := round_robin_fair
  exact ⟨σ, ⟨_, inv_disabling, h _, rfl⟩, ⟨_, inv_controlling, h _, rfl⟩, ⟨_, inv_resetting, h _, rfl⟩,
    _, inv_sending, h _, rfl, rfl, rfl⟩

theorem witness_UnsynchronisedTransactions :
    State.reset.eng.swrstPending = false ∧ State.reset.eng.enableApplied = false ∧
    State.reset.eng.pendEnable = none ∧ State.reset.eng.rxc = false ∧
    (waiting.eng.swrstPending = false ∧ waiting.eng.rxc = true) := by decide

theorem witness_LineTraffic :
    (sending.eng.enableApplied = true ∧ sending.eng.ctrlb.txen = true ∧ sending.eng.txHold = some 0x48) ∧
    ¬ (live.eng.enableApplied = true ∧ live.eng.ctrlb.txen = true ∧ live.eng.txHold.isSome = true) ∧
    { live with lineBytes := [0x41] }.lineBytes = 0x41 :: [] ∧
    (live.eng.enableApplied = true ∧ live.eng.ctrlb.rxen = true ∧ live.eng.swrstPending = false ∧
      live.eng.rxc = false) ∧
    (waiting.eng.enableApplied = true ∧ waiting.eng.ctrlb.rxen = true ∧ waiting.eng.swrstPending = false ∧
      waiting.eng.rxc = true) ∧
    ¬ (State.reset.eng.enableApplied = true ∧ State.reset.eng.ctrlb.rxen = true ∧
      State.reset.eng.swrstPending = false) := by decide

theorem witness_IgnoredAccesses :
    resetting.eng.swrstPending = true ∧
    (live.eng.swrstPending = false ∧ live.eng.enableApplied = true) ∧
    (disabling.eng.swrstPending = false ∧ disabling.eng.pendEnable ≠ none) := by decide

/-! ### The invariant -/

theorem witness_StepKeepsInvariant :
    (∃ t, State.reset.Inv ∧ step State.reset = .next t) ∧
    (∃ s t : State, s.Inv ∧ step s = .next t ∧ s.sp = 22) ∧ ∃ s t : State, s.Inv ∧ step s = .next t ∧ s.isrSp = some .i1 :=
  ⟨⟨_, inv_reset, rfl⟩, ⟨_, _, inv_config_end, rfl, rfl⟩, _, _, inv_isr_one, rfl, rfl⟩

theorem witness_RunsFromResetAreSafe : Params.default.sysClkHz ≠ 0 := by decide

theorem witness_FaultSources :
    (∃ s t : State, s.Inv ∧ step s = .next t ∧ FaultName.txOverrun ∈ t.faults ∧ FaultName.txOverrun ∉ s.faults) ∧
    (∃ s t : State, s.Inv ∧ step s = .next t ∧ FaultName.txDisabled ∈ t.faults ∧ FaultName.txDisabled ∉ s.faults) ∧
    (∃ s t : State, s.Inv ∧ step s = .next t ∧ FaultName.illegalCmd ∈ t.faults ∧ FaultName.illegalCmd ∉ s.faults) ∧
    ∃ s t : State, s.Inv ∧ step s = .next t ∧ FaultName.rxOverflow ∈ t.faults ∧ FaultName.rxOverflow ∉ s.faults := by
  refine ⟨⟨pick (at_ sending .wrnb 0) .mainline, _, ?_, rfl, by decide, by decide⟩,
    ⟨at_ State.reset .wrnb 0, _, ?_, rfl, by decide, by decide⟩,
    ⟨{ State.reset with hostWords := [8] }, _, ?_, rfl, by decide, by decide⟩,
    pick { waiting with lineBytes := [0x42] } .line, _, ?_, rfl, by decide, by decide⟩
  · exact inv_of (by decide) (by decide) ⟨rfl, rfl, rfl, rfl⟩ trivial (by decide) rfl
  · exact inv_of (by decide) (by decide) ⟨rfl, rfl, rfl, rfl⟩ trivial (by decide) rfl
  · exact inv_of (by decide) (by decide) ⟨rfl, rfl, rfl⟩ trivial (by decide) rfl
  · exact inv_of (by decide) (by decide) ⟨rfl, rfl, rfl⟩ trivial (by decide) rfl

end Sys2Proof.Tests
end

section
/-! PROOF. The log and the fault set only record (R28, R49, R151). The property is stated of one operation at one state, put
together along the operations' definitions, and carried up to the step. -/

namespace Sys2Proof.Machine

/-! ## The property -/

/-- `s` with another log and another fault set in place of its own. -/
def State.withRecord (s : State) (l : List Event) (fs : List FaultName) : State := { s with log := l, faults := fs }

/-- R28, R49, R151: the operation `f` reads neither the log nor the fault set at `s`. Whatever the two hold, it adds the
same entries to the log, records the faults among them, and does the same to every other field. -/
def OnlyRecords (f : State → State) (s : State) : Prop :=
  ∃ es : List Event, ∀ l fs, f (s.withRecord l fs) = (f s).withRecord (l ++ es) (recordFaults es fs)

/-- The same of a read transaction, whose value does not depend on the log and the fault set either. -/
def ReadOnlyRecords {α : Type} (f : State → α × State) (s : State) : Prop :=
  ∃ es : List Event, ∀ l fs,
    f (s.withRecord l fs) = ((f s).1, (f s).2.withRecord (l ++ es) (recordFaults es fs))

/-- The same of a step that may stop: where it answers a next state, it answers one whatever the log and the fault set
hold. -/
def AnswerOnlyRecords (f : State → Answer) (s : State) : Prop :=
  ∀ t, f s = .next t → ∃ es : List Event, ∀ l fs,
    f (s.withRecord l fs) = .next (t.withRecord (l ++ es) (recordFaults es fs))

@[simp] theorem withRecord_sp (s : State) (l : List Event) (fs : List FaultName) : (s.withRecord l fs).sp = s.sp := rfl
@[simp] theorem withRecord_cur (s : State) (l : List Event) (fs : List FaultName) : (s.withRecord l fs).cur = s.cur := rfl
@[simp] theorem withRecord_hostWords (s : State) (l : List Event) (fs : List FaultName) :
    (s.withRecord l fs).hostWords = s.hostWords := rfl
@[simp] theorem withRecord_isrSp (s : State) (l : List Event) (fs : List FaultName) :
    (s.withRecord l fs).isrSp = s.isrSp := rfl

theorem recordFaults_append (es ds : List Event) (fs : List FaultName) :
    recordFaults (es ++ ds) fs = recordFaults ds (recordFaults es fs) := by
  simp [recordFaults]

theorem recordFaults_of_faultName?_eq_none {e : Event} (he : e.faultName? = none) (fs : List FaultName) :
    recordFaults [e] fs = fs := by
  simp [recordFaults, he]

section
variable {f g : State → State} {s : State}

/-! ## How the property is put together along an operation's definition -/

/-- An operation that touches neither. -/
theorem OnlyRecords.of_keeps (h : ∀ l fs, f (s.withRecord l fs) = (f s).withRecord l fs) : OnlyRecords f s :=
  ⟨[], fun l fs => by simpa [recordFaults] using h l fs⟩

theorem OnlyRecords.andThen (hf : OnlyRecords f s) (hg : OnlyRecords g (f s)) : OnlyRecords (fun u => g (f u)) s := by
  obtain ⟨es, hf⟩ := hf
  obtain ⟨ds, hg⟩ := hg
  exact ⟨es ++ ds, fun l fs => by simp only [hf, hg, recordFaults_append, List.append_assoc]⟩

theorem OnlyRecords.ite {c : State → Bool} (hc : ∀ l fs, c (s.withRecord l fs) = c s) (hf : OnlyRecords f s)
    (hg : OnlyRecords g s) : OnlyRecords (fun u => if c u then f u else g u) s := by
  simp only [OnlyRecords, hc]
  split
  · exact hf
  · exact hg

theorem OnlyRecords.emit (hf : OnlyRecords f s) {e : State → Event} (he : ∀ l fs, e (s.withRecord l fs) = e s)
    (hn : (e s).faultName? = none) : OnlyRecords (fun u => (f u).emit (e u)) s := by
  obtain ⟨es, hf⟩ := hf
  refine ⟨es ++ [e s], fun l fs => ?_⟩
  simp only [hf, he, recordFaults_append, recordFaults_of_faultName?_eq_none hn, ← List.append_assoc]
  rfl

theorem raiseFault_onlyRecords (s : State) (n : FaultName) : OnlyRecords (·.raiseFault n) s :=
  ⟨[.fault n], fun _ _ => rfl⟩

theorem OnlyRecords.raiseFault (hf : OnlyRecords f s) (n : FaultName) :
    OnlyRecords (fun u => (f u).raiseFault n) s :=
  hf.andThen (raiseFault_onlyRecords _ n)

/-- The branch an operation takes, where the log and the fault set do not decide it. -/
theorem OnlyRecords.of_eq (h : ∀ l fs, f (s.withRecord l fs) = g (s.withRecord l fs)) (hg : OnlyRecords g s) :
    OnlyRecords f s := by
  have hs : f s = g s := h s.log s.faults
  simpa only [OnlyRecords, h, hs] using hg

theorem OnlyRecords.gotoStep (hf : OnlyRecords f s) (n : Nat) : OnlyRecords (fun u => (f u).gotoStep n) s :=
  hf.andThen (g := (·.gotoStep n)) (.of_keeps fun _ _ => rfl)

theorem OnlyRecords.complete (hf : OnlyRecords f s) (v : Bool) : OnlyRecords (fun u => (f u).complete v) s :=
  hf.andThen (g := (·.complete v)) ⟨[.rsp v], fun _ _ => rfl⟩

/-- A read that gives the value `v` and leaves the state `f`. -/
theorem ReadOnlyRecords.of_state {α : Type} {v : State → α} (hf : OnlyRecords f s)
    (hv : ∀ l fs, v (s.withRecord l fs) = v s) : ReadOnlyRecords (fun u => (v u, f u)) s := by
  obtain ⟨es, hf⟩ := hf
  exact ⟨es, fun l fs => by simp only [hf, hv]⟩

theorem ReadOnlyRecords.ite {α : Type} {f g : State → α × State} {c : State → Bool}
    (hc : ∀ l fs, c (s.withRecord l fs) = c s) (hf : ReadOnlyRecords f s) (hg : ReadOnlyRecords g s) :
    ReadOnlyRecords (fun u => if c u then f u else g u) s := by
  simp only [ReadOnlyRecords, hc]
  split
  · exact hf
  · exact hg

/-- An operation after a read, on the value read. -/
theorem ReadOnlyRecords.andThen {α : Type} {r : State → α × State} {k : α → State → State} (hr : ReadOnlyRecords r s)
    (hk : OnlyRecords (k (r s).1) (r s).2) : OnlyRecords (fun u => k (r u).1 (r u).2) s := by
  obtain ⟨es, hr⟩ := hr
  obtain ⟨ds, hk⟩ := hk
  exact ⟨es ++ ds, fun l fs => by simp only [hr, hk, recordFaults_append, List.append_assoc]⟩

theorem OnlyRecords.answers (hf : OnlyRecords f s) : AnswerOnlyRecords (fun u => .next (f u)) s := by
  obtain ⟨es, hf⟩ := hf
  rintro t ⟨⟩
  exact ⟨es, fun l fs => congrArg _ (hf l fs)⟩

/-- The branch a step takes, where the log and the fault set do not decide it. -/
theorem AnswerOnlyRecords.of_eq {f g : State → Answer} (h : ∀ l fs, f (s.withRecord l fs) = g (s.withRecord l fs))
    (hg : AnswerOnlyRecords g s) : AnswerOnlyRecords f s := by
  have hs : f s = g s := h s.log s.faults
  intro t ht
  simpa only [h] using hg t (hs ▸ ht)

end

variable (s : State)

/-! ## Reads -/

theorem readFlag_onlyRecords {entry : Bool → ReadEntry} {value : State → Bool × State}
    (hv : ∀ l fs, value (s.withRecord l fs) = ((value s).1, (value s).2.withRecord l fs)) :
    ReadOnlyRecords (·.readFlag entry value) s :=
  have drawn : OnlyRecords (fun u => u.drawBit.2) s := .of_keeps fun _ _ => rfl
  have kept : OnlyRecords (fun u => (value u).2) s := .of_keeps fun l fs => by rw [hv]
  .ite (fun _ _ => rfl)
    (.of_state ((drawn.emit (fun _ _ => rfl) rfl).raiseFault _) fun _ _ => rfl)
    (.of_state (kept.emit (fun l fs => by rw [hv]) rfl) fun l fs => by rw [hv])

theorem enableValue_withRecord (l : List Event) (fs : List FaultName) :
    (s.withRecord l fs).enableValue = (s.enableValue.1, s.enableValue.2.withRecord l fs) := by
  cases h : s.eng.syncEnable <;> simp [State.enableValue, State.withRecord, h, State.drawBit]

theorem dreValue_withRecord (l : List Event) (fs : List FaultName) :
    (s.withRecord l fs).dreValue = (s.dreValue.1, s.dreValue.2.withRecord l fs) := by
  cases h : s.eng.transmitterOn <;> simp [State.dreValue, State.withRecord, h, State.drawBit]

theorem readEnable_onlyRecords : ReadOnlyRecords State.readEnable s :=
  readFlag_onlyRecords s (enableValue_withRecord s)

theorem readDre_onlyRecords : ReadOnlyRecords State.readDre s :=
  readFlag_onlyRecords s (dreValue_withRecord s)

theorem readRxc_onlyRecords : ReadOnlyRecords State.readRxc s := readFlag_onlyRecords s fun _ _ => rfl

/-- A `DATA` read that faults gives a drawn byte. -/
theorem drawnData_onlyRecords (n : FaultName) :
    ReadOnlyRecords (fun u => (u.drawByte.1, (u.drawByte.2.emit (.rd (.data u.drawByte.1))).raiseFault n)) s :=
  .of_state (((OnlyRecords.of_keeps fun _ _ => rfl).emit (fun _ _ => rfl) rfl).raiseFault n) fun _ _ => rfl

theorem readData_onlyRecords : ReadOnlyRecords State.readData s :=
  .ite (fun _ _ => rfl) (drawnData_onlyRecords s _)
    (.ite (fun _ _ => rfl) (.of_state ⟨[.rd (.data s.eng.rxData)], fun _ _ => rfl⟩ fun _ _ => rfl)
      (drawnData_onlyRecords s _))

/-! ## Writes -/

theorem write_onlyRecords {e : Event} (he : e.faultName? = none) {p : Bool} {effect : State → State}
    (hf : OnlyRecords effect (s.emit e)) : OnlyRecords (·.write e p effect) s :=
  have emitted : OnlyRecords (·.emit e) s := .emit (.of_keeps fun _ _ => rfl) (fun _ _ => rfl) he
  .ite (fun _ _ => rfl) (emitted.raiseFault _)
    (.ite (c := fun u => p && u.eng.writeProtected) (fun _ _ => rfl) (emitted.raiseFault _) (emitted.andThen hf))

theorem startEnableSync_onlyRecords (v : Bool) : OnlyRecords (·.startEnableSync v) s :=
  .ite (fun _ _ => rfl) (raiseFault_onlyRecords s _) (.of_keeps fun _ _ => rfl)

theorem startSwrst_onlyRecords : OnlyRecords State.startSwrst s :=
  .ite (fun _ _ => rfl) (raiseFault_onlyRecords s _) (.of_keeps fun _ _ => rfl)

theorem applyCtrla_onlyRecords (w : CtrlaWrite) : OnlyRecords (·.applyCtrla w) s :=
  have fieldsWritten : OnlyRecords (fun u => { u with eng := { u.eng with ctrla := w.fields } }) s :=
    .of_keeps fun _ _ => rfl
  have bitsActed (u : State) : OnlyRecords (fun u => if w.enable != u.eng.enableApplied then u.startEnableSync w.enable
      else if w.swrst then u.startSwrst else u) u :=
    .ite (fun _ _ => rfl) (startEnableSync_onlyRecords u _)
      (.ite (fun _ _ => rfl) (startSwrst_onlyRecords u) (.of_keeps fun _ _ => rfl))
  .ite (fun _ _ => rfl) (raiseFault_onlyRecords s _) (fieldsWritten.andThen (bitsActed _))

theorem startCtrlbSync_onlyRecords (c : Ctrlb) : OnlyRecords (·.startCtrlbSync c) s :=
  .ite (fun _ _ => rfl) (raiseFault_onlyRecords s _) (.of_keeps fun _ _ => rfl)

theorem fillTxHold_onlyRecords (b : Byte) : OnlyRecords (·.fillTxHold b) s :=
  .ite (fun _ _ => rfl) (raiseFault_onlyRecords s _)
    (.ite (fun _ _ => rfl) (raiseFault_onlyRecords s _) (.of_keeps fun _ _ => rfl))

theorem writeEnable_onlyRecords (v : Bool) : OnlyRecords (·.writeEnable v) s :=
  write_onlyRecords s rfl (startEnableSync_onlyRecords _ v)

theorem writeSwrst_onlyRecords (v : Bool) : OnlyRecords (·.writeSwrst v) s :=
  write_onlyRecords s rfl (.ite (fun _ _ => rfl) (startSwrst_onlyRecords _) (.of_keeps fun _ _ => rfl))

theorem writeCtrla_onlyRecords (w : CtrlaWrite) : OnlyRecords (·.writeCtrla w) s :=
  write_onlyRecords s rfl (applyCtrla_onlyRecords _ w)

theorem writeBaud_onlyRecords (d : BitVec 16) : OnlyRecords (·.writeBaud d) s :=
  write_onlyRecords s rfl (.of_keeps fun _ _ => rfl)

theorem writeCtrlb_onlyRecords (c : Ctrlb) : OnlyRecords (·.writeCtrlb c) s :=
  write_onlyRecords s rfl (startCtrlbSync_onlyRecords _ c)

theorem writeIntenset_onlyRecords (v : Bool) : OnlyRecords (·.writeIntenset v) s :=
  write_onlyRecords s rfl (.of_keeps fun _ _ => rfl)

theorem writeData_onlyRecords (b : Byte) : OnlyRecords (·.writeData b) s :=
  write_onlyRecords s rfl (fillTxHold_onlyRecords _ b)

/-! ## Steps of the engine and of the line -/

theorem discardTxHold_onlyRecords : OnlyRecords State.discardTxHold s := by
  cases h : s.eng.txHold with
  | none => exact .of_keeps fun _ _ => by simp [State.discardTxHold, State.withRecord, h]
  | some b =>
    cases hb : Config.freeBit s.draws with
    | false => exact .of_keeps fun _ _ => by simp [State.discardTxHold, State.withRecord, State.drawBit, h, hb]
    | true =>
      exact .of_eq (g := fun u => { u.drawBit.2 with eng := { u.eng with txHold := none } }.emit (.wireTx b))
        (fun _ _ => by simp [State.discardTxHold, State.withRecord, State.drawBit, State.emit, h, hb])
        (.emit (.of_keeps fun _ _ => rfl) (fun _ _ => rfl) rfl)

theorem engSyncEnable_onlyRecords : OnlyRecords State.engSyncEnable s := by
  cases h : s.eng.pendEnable with
  | none => exact .of_keeps fun _ _ => by simp [State.engSyncEnable, State.withRecord, h]
  | some v =>
    have applied : OnlyRecords (fun u : State =>
        { u with eng := { u.eng with enableApplied := v, pendEnable := none, syncEnable := false } }) s :=
      .of_keeps fun _ _ => rfl
    cases v with
    | true => exact .of_eq (fun _ _ => by simp [State.engSyncEnable, State.withRecord, h]) applied
    | false =>
      exact .of_eq (fun _ _ => by simp [State.engSyncEnable, State.withRecord, h])
        (applied.andThen (discardTxHold_onlyRecords _))

theorem engSyncCtrlb_onlyRecords : OnlyRecords State.engSyncCtrlb s := by
  cases h : s.eng.pendCtrlb with
  | none => exact .of_keeps fun _ _ => by simp [State.engSyncCtrlb, State.withRecord, h]
  | some v => exact .of_keeps fun _ _ => by simp [State.engSyncCtrlb, State.withRecord, h]

theorem engSwrstDone_onlyRecords : OnlyRecords State.engSwrstDone s :=
  .ite (fun _ _ => rfl) (.of_keeps fun _ _ => rfl) (.of_keeps fun _ _ => rfl)

theorem engTx_onlyRecords : OnlyRecords State.engTx s := by
  cases h : s.eng.txHold with
  | none => exact .of_keeps fun _ _ => by simp [State.engTx, State.withRecord, h]
  | some b =>
    refine .of_eq (g := fun u => if u.eng.txReady then { u with eng := { u.eng with txHold := none } }.emit (.wireTx b)
      else u) (fun _ _ => by simp [State.engTx, State.withRecord, h]) ?_
    exact .ite (fun _ _ => rfl) ⟨[.wireTx b], fun _ _ => rfl⟩ (.of_keeps fun _ _ => rfl)

theorem engRx_onlyRecords (b : Byte) : OnlyRecords (·.engRx b) s :=
  have logged : OnlyRecords (·.emit (.wireRx b)) s := .emit (.of_keeps fun _ _ => rfl) (fun _ _ => rfl) rfl
  .ite (fun _ _ => rfl) (logged.raiseFault _) ⟨[.wireRx b], fun _ _ => rfl⟩

theorem lineStep_onlyRecords : OnlyRecords State.lineStep s := by
  cases h : s.lineBytes with
  | nil => exact .of_keeps fun _ _ => by simp [State.lineStep, State.withRecord, h]
  | cons b rest =>
    refine .of_eq (g := fun u => if u.eng.rxReady then { u with lineBytes := rest }.engRx b else u)
      (fun _ _ => by simp [State.lineStep, State.withRecord, h]) ?_
    have taken : OnlyRecords (fun u : State => { u with lineBytes := rest }) s := .of_keeps fun _ _ => rfl
    exact .ite (fun _ _ => rfl) (taken.andThen (engRx_onlyRecords _ b)) (.of_keeps fun _ _ => rfl)

/-! ## The commands' numbered steps. The arms stand in the order of the step numbers, the last arm being "no such step". -/

theorem capPinmux_onlyRecords (p : Pin) (fn : PinFn) : OnlyRecords (·.capPinmux p fn) s :=
  ⟨[.cap (.pinmux (p.id s.params) fn)], fun _ _ => rfl⟩

theorem activeWritten_onlyRecords (v : Bool) : OnlyRecords (fun u => { u with active := v }) s :=
  .of_keeps fun _ _ => rfl

theorem seqWritten_onlyRecords (q : SeqState) : OnlyRecords (fun u => { u with seq := q }) s :=
  .of_keeps fun _ _ => rfl

theorem claimStep_onlyRecords : AnswerOnlyRecords claimStep s := by
  intro t h
  simp only [claimStep, withRecord_sp] at h ⊢
  generalize s.sp = n at h ⊢
  split at h
  · exact ((capPinmux_onlyRecords s .tx s.uartFn).gotoStep 1).answers t h
  · exact ((capPinmux_onlyRecords s .rx s.uartFn).gotoStep 2).answers t h
  · -- C2 keeps `sp`, which the match has replaced by 2
    exact ((activeWritten_onlyRecords { s with sp := 2 } true).complete false).answers t h
  · cases h

theorem releaseStep_onlyRecords : AnswerOnlyRecords releaseStep s := by
  intro t h
  simp only [releaseStep, withRecord_sp] at h ⊢
  generalize s.sp = n at h ⊢
  split at h
  · exact ((activeWritten_onlyRecords s false).gotoStep 1).answers t h
  · exact ((capPinmux_onlyRecords s .tx .gpio).gotoStep 2).answers t h
  · exact ((capPinmux_onlyRecords s .rx .gpio).complete false).answers t h
  · cases h

theorem rdyqStep_onlyRecords : AnswerOnlyRecords rdyqStep s := by
  intro t h
  simp only [rdyqStep, withRecord_sp] at h ⊢
  generalize s.sp = n at h ⊢
  split at h
  · exact ((readDre_onlyRecords s).andThen (k := fun v u => { u with qTmp := v }.complete v)
      ⟨[.rsp _], fun _ _ => rfl⟩).answers t h
  · cases h

theorem wrnbStep_onlyRecords : AnswerOnlyRecords wrnbStep s := by
  intro t h
  simp only [wrnbStep, withRecord_sp] at h ⊢
  generalize s.sp = n at h ⊢
  split at h
  · exact ((writeData_onlyRecords s s.bReg).complete false).answers t h
  · cases h

theorem wrblkStep_onlyRecords : AnswerOnlyRecords wrblkStep s := by
  intro t h
  simp only [wrblkStep, withRecord_sp] at h ⊢
  generalize s.sp = n at h ⊢
  split at h
  · exact ((readDre_onlyRecords s).andThen (k := fun v u => { u with qTmp := v }.gotoStep (if v then 1 else 0))
      (.of_keeps fun _ _ => rfl)).answers t h
  · exact ((writeData_onlyRecords s s.bReg).complete false).answers t h
  · cases h

theorem pollNotBusy_onlyRecords (here next : Nat) : OnlyRecords (·.pollNotBusy here next) s :=
  ⟨[.rd (.syncbusyReset s.eng.swrstPending s.eng.syncEnable)], fun _ _ => rfl⟩

theorem configS0_onlyRecords : OnlyRecords configS0 s :=
  (seqWritten_onlyRecords s .disabled).andThen
    ((readEnable_onlyRecords _).andThen (k := fun v u => { u with eTmp := v }.gotoStep 1) (.of_keeps fun _ _ => rfl))

theorem configStep_onlyRecords : AnswerOnlyRecords configStep s := by
  intro t h
  simp only [configStep, withRecord_sp] at h ⊢
  generalize s.sp = n at h ⊢
  split at h
  · exact (configS0_onlyRecords s).answers t h
  · exact OnlyRecords.answers (f := configS1) (.of_keeps fun _ _ => rfl) t h
  · exact (pollNotBusy_onlyRecords s 2 3).answers t h
  · exact ((writeEnable_onlyRecords s false).gotoStep 4).answers t h
  · exact ((seqWritten_onlyRecords s .resetting).andThen (pollNotBusy_onlyRecords _ 4 5)).answers t h
  · exact ((writeSwrst_onlyRecords s true).gotoStep 6).answers t h
  · exact (pollNotBusy_onlyRecords s 6 7).answers t h
  · exact OnlyRecords.answers (f := configS7) (.of_keeps fun _ _ => rfl) t h
  · exact ((capPinmux_onlyRecords s .tx s.uartFn).gotoStep 9).answers t h
  · exact ((capPinmux_onlyRecords s .rx s.uartFn).gotoStep 10).answers t h
  · exact ((activeWritten_onlyRecords s true).gotoStep 11).answers t h
  · exact OnlyRecords.answers (f := configS11) ⟨[.cap (.enableBusClock s.params.busClockId)], fun _ _ => rfl⟩ t h
  · exact OnlyRecords.answers (f := configS12)
      ⟨[.cap (.routeGenerator s.params.periphClockId s.params.gclkGenId)], fun _ _ => rfl⟩ t h
  · exact ((writeCtrla_onlyRecords s (modeFraming s.params)).gotoStep 14).answers t h
  · exact OnlyRecords.answers (f := configS14) (.of_keeps fun _ _ => rfl) t h
  · exact ((writeBaud_onlyRecords s s.dp.dReg).gotoStep 16).answers t h
  · exact ((writeCtrlb_onlyRecords s frameControl).gotoStep 17).answers t h
  · exact OnlyRecords.answers (f := configS17) ⟨[.rd (.syncbusyCtrlb s.eng.syncCtrlb)], fun _ _ => rfl⟩ t h
  · exact ((writeIntenset_onlyRecords s true).gotoStep 19).answers t h
  · exact OnlyRecords.answers (f := configS19) ⟨[.cap (.unmask s.params.irqLine)], fun _ _ => rfl⟩ t h
  · exact (((seqWritten_onlyRecords s .enabled).andThen (writeEnable_onlyRecords _ true)).gotoStep 21).answers t h
  · exact OnlyRecords.answers (f := configS21) ⟨[.rd (.syncbusyEnable s.eng.syncEnable)], fun _ _ => rfl⟩ t h
  · exact OnlyRecords.answers (f := configS22) ⟨[.rsp false], fun _ _ => rfl⟩ t h
  · cases h

theorem sequenceOf_onlyRecords (c : Cmd) : AnswerOnlyRecords (sequenceOf c) s := by
  cases c with
  | claim => exact claimStep_onlyRecords s
  | release => exact releaseStep_onlyRecords s
  | config => exact configStep_onlyRecords s
  | rdyq => exact rdyqStep_onlyRecords s
  | wrnb => exact wrnbStep_onlyRecords s
  | wrblk => exact wrblkStep_onlyRecords s

/-! ## The steps of RXISR -/

theorem rxisrI0_onlyRecords : OnlyRecords rxisrI0 s :=
  (readRxc_onlyRecords s).andThen (k := fun v u =>
      if v then { u with isrF := v, isrSp := some .i1 } else { u with isrF := v }.returnFromInterrupt)
    (.ite (fun _ _ => rfl) (.of_keeps fun _ _ => rfl) (.of_keeps fun _ _ => rfl))

theorem rxisrI1_onlyRecords : OnlyRecords rxisrI1 s :=
  (readData_onlyRecords s).andThen (k := fun b u => { u with isrByte := b, isrSp := some .i2 })
    (.of_keeps fun _ _ => rfl)

theorem execRxisr_onlyRecords : AnswerOnlyRecords execRxisr s := by
  cases h : s.isrSp with
  | none =>
    refine .of_eq (g := fun u => .next (if u.dispatchReady then u.takeInterrupt else u))
      (fun l fs => by simp only [execRxisr, withRecord_isrSp, h]; split <;> rfl) ?_
    exact OnlyRecords.answers
      (.ite (fun _ _ => rfl) ⟨[.cmd rxisrWord], fun _ _ => rfl⟩ (.of_keeps fun _ _ => rfl))
  | some i =>
    cases i with
    | i0 => exact .of_eq (fun _ _ => by simp only [execRxisr, withRecord_isrSp, h]) (rxisrI0_onlyRecords s).answers
    | i1 => exact .of_eq (fun _ _ => by simp only [execRxisr, withRecord_isrSp, h]) (rxisrI1_onlyRecords s).answers
    | i2 =>
      exact .of_eq (fun _ _ => by simp only [execRxisr, withRecord_isrSp, h])
        (OnlyRecords.answers (f := rxisrI2) ⟨[.deliver s.isrByte], fun _ _ => rfl⟩)

/-! ## Moves of the agents -/

/-- A step that does nothing (log entry 5). -/
theorem next_onlyRecords : AnswerOnlyRecords .next s := OnlyRecords.answers (f := id) (.of_keeps fun _ _ => rfl)

theorem accept_onlyRecords (i : Instr) (c : Cmd) : OnlyRecords (·.accept i c) s :=
  ⟨[.cmd (encode i)], fun _ _ => by cases i <;> rfl⟩

theorem acceptIllegal_onlyRecords (w : Word40) : OnlyRecords (·.acceptIllegal w) s :=
  .raiseFault (.emit (.of_keeps fun _ _ => rfl) (fun _ _ => rfl) rfl) _

theorem mainlineStep_onlyRecords (i : Instr) {c : Cmd} {seq : State → Answer} (hseq : AnswerOnlyRecords seq s) :
    AnswerOnlyRecords (mainlineStep i c seq) s := by
  by_cases hi : s.isrSp = none
  · cases hc : s.cur with
    | none =>
      exact .of_eq (fun l fs => mainlineStep_accept (s := s.withRecord l fs) hi hc) (accept_onlyRecords s i c).answers
    | some d =>
      by_cases hd : d = c
      · subst hd
        exact .of_eq (fun l fs => mainlineStep_running (s := s.withRecord l fs) hi hc) hseq
      · exact .of_eq (fun l fs => mainlineStep_busy (s := s.withRecord l fs) hc hd) (next_onlyRecords s)
  · exact .of_eq (fun l fs => mainlineStep_isr (s := s.withRecord l fs) hi) (next_onlyRecords s)

theorem exec_onlyRecords (i : Instr) : AnswerOnlyRecords (exec i) s := by
  cases hc : cmdOf i with
  | some c => exact .of_eq (fun _ _ => exec_mainline hc _) (mainlineStep_onlyRecords s i (sequenceOf_onlyRecords s c))
  | none => cases i <;> cases hc; exact execRxisr_onlyRecords s

theorem present_onlyRecords (p : Port) (w : Word40) : AnswerOnlyRecords (present p w) s := by
  cases h : decode p w with
  | ok i => exact .of_eq (fun _ _ => by simp only [present, h]) (exec_onlyRecords s i)
  | error e => exact .of_eq (fun _ _ => by simp only [present, h]) (acceptIllegal_onlyRecords s w).answers

theorem hostMove_onlyRecords : AnswerOnlyRecords hostMove s := by
  by_cases hr : s.portReady = true
  · cases hw : s.hostWords with
    | nil => exact .of_eq (fun _ _ => by simp [hostMove, hw]) (next_onlyRecords s)
    | cons w rest =>
      have ready (l : List Event) (fs : List FaultName) : (s.withRecord l fs).portReady = true := hr
      exact .of_eq (g := fun u => present .mainline w { u with hostWords := rest })
        (fun _ _ => by simp [hostMove, ready, hw])
        (present_onlyRecords { s with hostWords := rest } .mainline w)
  · exact .of_eq (fun _ _ => if_neg hr) (next_onlyRecords s)

theorem runningInstr_withRecord (l : List Event) (fs : List FaultName) (c : Cmd) :
    (s.withRecord l fs).runningInstr c = s.runningInstr c := by
  cases c <;> rfl

theorem mainlineMove_onlyRecords : AnswerOnlyRecords mainlineMove s := by
  cases h : s.cur with
  | none => exact .of_eq (fun _ _ => by simp only [mainlineMove, withRecord_cur, h]) (next_onlyRecords s)
  | some c =>
    exact .of_eq (fun _ _ => by simp only [mainlineMove, withRecord_cur, h, runningInstr_withRecord])
      (exec_onlyRecords s (s.runningInstr c))

theorem runMove_onlyRecords (m : Move) : AnswerOnlyRecords (runMove m) s := by
  cases m with
  | host => exact hostMove_onlyRecords s
  | mainline => exact mainlineMove_onlyRecords s
  | isr => exact present_onlyRecords s .dispatch rxisrWord
  | engSyncEnable => exact (engSyncEnable_onlyRecords s).answers
  | engSyncCtrlb => exact (engSyncCtrlb_onlyRecords s).answers
  | engSwrstDone => exact (engSwrstDone_onlyRecords s).answers
  | engTx => exact (engTx_onlyRecords s).answers
  | line => exact (lineStep_onlyRecords s).answers

theorem nextMove_withRecord (l : List Event) (fs : List FaultName) : (s.withRecord l fs).nextMove = s.nextMove := rfl

theorem tick_withRecord (l : List Event) (fs : List FaultName) : (s.withRecord l fs).tick = s.tick.withRecord l fs := rfl

theorem step_onlyRecords : AnswerOnlyRecords step s := by
  intro t h
  obtain ⟨hf, h⟩ := runMove_of_step h
  obtain ⟨es, hes⟩ := runMove_onlyRecords s.tick s.nextMove t h
  refine ⟨es, fun l fs => ?_⟩
  rw [step_eq_runMove (s := s.withRecord l fs) hf, nextMove_withRecord, tick_withRecord, hes]

/-- Settles O11: every operation of the model is put together from entries, recorded faults and updates that read neither
the log nor the fault set. -/
theorem logAndFaultsOnlyRecord : Obligations.LogAndFaultsOnlyRecord := by
  unfold Obligations.LogAndFaultsOnlyRecord
  exact ⟨fun _ => ⟨rfl, rfl⟩, step_onlyRecords⟩

end Sys2Proof.Machine
end

section
/-! PROOF. Who writes the Active Flag (R23): where the numbered steps write it, that no other move does, and the step. -/

namespace Sys2Proof.Machine

/-- A running command's meaning is the numbered step at which it stands. -/
theorem exec_of_standsAt {i : Instr} {c : Cmd} {n : Nat} {s : State} (hc : cmdOf i = some c) (h : s.standsAt c n) :
    exec i s = sequenceOf c s := by
  obtain ⟨hisr, hcur, _⟩ := h
  rw [exec_mainline hc, mainlineStep_running hisr hcur]

section
variable {s t : State}

theorem BusFrame.active_eq (h : BusFrame s t) : t.active = s.active := by rw [h]

theorem claimStep_active (h : claimStep s = .next t) : t.active = s.active ∨ s.sp = 2 ∧ t.active = true := by
  rcases claimStep_cases h with ⟨_, rfl⟩ | ⟨_, rfl⟩ | ⟨hsp, rfl⟩
  · exact .inl rfl
  · exact .inl rfl
  · exact .inr ⟨hsp, rfl⟩

theorem releaseStep_active (h : releaseStep s = .next t) : t.active = s.active ∨ s.sp = 0 ∧ t.active = false := by
  rcases releaseStep_cases h with ⟨hsp, rfl⟩ | ⟨_, rfl⟩ | ⟨_, rfl⟩
  · exact .inr ⟨hsp, rfl⟩
  · exact .inl rfl
  · exact .inl rfl

theorem configStep_active (h : configStep s = .next t) : t.active = s.active ∨ s.sp = 10 ∧ t.active = true := by
  rcases configStep_cases h with ⟨_, rfl⟩ | ⟨_, rfl⟩ | ⟨_, rfl⟩ | ⟨_, rfl⟩ | ⟨_, rfl⟩ | ⟨_, rfl⟩ | ⟨_, rfl⟩ | ⟨_, rfl⟩ |
    ⟨_, rfl⟩ | ⟨_, rfl⟩ | ⟨hsp, rfl⟩ | ⟨_, rfl⟩ | ⟨_, rfl⟩ | ⟨_, rfl⟩ | ⟨_, rfl⟩ | ⟨_, rfl⟩ | ⟨_, rfl⟩ | ⟨_, rfl⟩ |
    ⟨_, rfl⟩ | ⟨_, rfl⟩ | ⟨_, rfl⟩ | ⟨_, rfl⟩ | ⟨_, rfl⟩
  -- S0 to S22 in order: a register transaction touches no UCB field, and of the other steps only S10 writes the flag.
  exacts [.inl (busFrame_readEnable { s with seq := .disabled }).active_eq, .inl rfl, .inl rfl,
    .inl (busFrame_writeEnable s false).active_eq, .inl rfl, .inl (busFrame_writeSwrst s true).active_eq, .inl rfl,
    .inl rfl, .inl rfl, .inl rfl, .inr ⟨hsp, rfl⟩, .inl rfl, .inl rfl, .inl (busFrame_writeCtrla s _).active_eq,
    .inl rfl, .inl (busFrame_writeBaud s _).active_eq, .inl (busFrame_writeCtrlb s _).active_eq, .inl rfl,
    .inl (busFrame_writeIntenset s true).active_eq, .inl rfl,
    .inl (busFrame_writeEnable { s with seq := .enabled } true).active_eq, .inl rfl, .inl rfl]

theorem rdyqStep_active (h : rdyqStep s = .next t) : t.active = s.active := by
  obtain ⟨_, rfl⟩ := rdyqStep_cases h
  exact (busFrame_readDre s).active_eq

theorem wrnbStep_active (h : wrnbStep s = .next t) : t.active = s.active := by
  obtain ⟨_, rfl⟩ := wrnbStep_cases h
  exact (busFrame_writeData s _).active_eq

theorem wrblkStep_active (h : wrblkStep s = .next t) : t.active = s.active := by
  rcases wrblkStep_cases h with ⟨_, rfl⟩ | ⟨_, rfl⟩
  · exact (busFrame_readDre s).active_eq
  · exact (busFrame_writeData s _).active_eq

theorem rxisr_active (h : exec .rxisr s = .next t) : t.active = s.active := by
  rcases rxisr_cases h with ⟨_, _, rfl⟩ | ⟨_, _, rfl⟩ | ⟨_, rfl⟩ | ⟨_, rfl⟩ | ⟨_, rfl⟩
  · rfl
  · rfl
  · unfold rxisrI0
    simp only
    split <;> exact (busFrame_readRxc s).active_eq
  · exact (busFrame_readData s).active_eq
  · rfl

/-- Where the numbered steps write the Active Flag, and the value it takes. -/
theorem sequenceOf_active {c : Cmd} (h : sequenceOf c s = .next t) :
    t.active = s.active ∨ t.active = true ∧ (c = .claim ∧ s.sp = 2 ∨ c = .config ∧ s.sp = 10) ∨
      t.active = false ∧ c = .release ∧ s.sp = 0 := by
  cases c with
  | claim => exact (claimStep_active h).imp_right fun ⟨hsp, ht⟩ => .inl ⟨ht, .inl ⟨rfl, hsp⟩⟩
  | config => exact (configStep_active h).imp_right fun ⟨hsp, ht⟩ => .inl ⟨ht, .inr ⟨rfl, hsp⟩⟩
  | release => exact (releaseStep_active h).imp_right fun ⟨hsp, ht⟩ => .inr ⟨ht, rfl, hsp⟩
  | rdyq => exact .inl (rdyqStep_active h)
  | wrnb => exact .inl (wrnbStep_active h)
  | wrblk => exact .inl (wrblkStep_active h)

/-- Only a numbered step of the mainline agent writes the Active Flag. -/
theorem runMove_active {m : Move} (h : runMove m s = .next t) :
    t.active = s.active ∨ m = .mainline ∧ s.isrSp = none ∧ ∃ c, s.cur = some c ∧ sequenceOf c s = .next t := by
  rcases runMove_cases h with rfl | ⟨_, _, w, rest, i, c, _, _, _, rfl⟩ | ⟨_, _, w, rest, e, _, _, rfl⟩ | hmain |
    ⟨_, hisr⟩ | ⟨_, rfl⟩ | ⟨_, rfl⟩ | ⟨_, rfl⟩ | ⟨_, rfl⟩ | ⟨_, rfl⟩
  · exact .inl rfl
  · exact .inl (accept_active _ i c)
  · exact .inl rfl
  · exact .inr hmain
  · exact .inl (rxisr_active hisr)
  · exact .inl (busFrame_engSyncEnable s).active_eq
  · exact .inl (busFrame_engSyncCtrlb s).active_eq
  · exact .inl (busFrame_engSwrstDone s).active_eq
  · exact .inl (busFrame_engTx s).active_eq
  · exact .inl (by rw [lineStep_frame])

/-- A CONFIG at S10 was asked to claim the pins: S7 goes there only with `c_reg = 1` (R109). -/
theorem State.Inv.cReg_of_config_ten (hinv : s.Inv) (h : s.standsAt .config 10) : s.cReg = true := by
  obtain ⟨_, hcur, hsp⟩ := h
  have hphase := hinv.command
  rw [hcur, hsp] at hphase
  obtain ⟨_, _, hc, _⟩ := hphase
  exact hc

theorem step_active (hinv : s.Inv) (h : step s = .next t) (hne : t.active ≠ s.active) :
    s.nextMove = .mainline ∧
      (t.active = true ∧ (s.standsAt .claim 2 ∨ s.standsAt .config 10 ∧ s.cReg = true) ∨
        t.active = false ∧ s.standsAt .release 0) := by
  obtain ⟨_, hrun⟩ := runMove_of_step h
  obtain ⟨hm, hi, c, hc, hseq⟩ := (runMove_active hrun).resolve_left hne
  refine ⟨hm, ?_⟩
  rcases (sequenceOf_active hseq).resolve_left hne with ⟨ht, ⟨rfl, hsp⟩ | ⟨rfl, hsp⟩⟩ | ⟨ht, rfl, hsp⟩
  · exact .inl ⟨ht, .inl ⟨hi, hc, hsp⟩⟩
  · have hat : s.standsAt .config 10 := ⟨hi, hc, hsp⟩
    exact .inl ⟨ht, .inr ⟨hat, hinv.cReg_of_config_ten hat⟩⟩
  · exact .inr ⟨ht, hi, hc, hsp⟩
end

/-- Settles O18: only C2, L0 and S10 write the flag, and the invariant says that S10 is reached with `c_reg = 1`. -/
theorem activeFlagWriters : Obligations.ActiveFlagWriters := by
  unfold Obligations.ActiveFlagWriters
  refine ⟨fun _ => rfl, fun s h => ?_, fun s h => ?_, fun s h => ?_, fun _ _ => step_active⟩
  · have ⟨_, _, hsp⟩ := h
    rw [exec_of_standsAt rfl h]
    simp [sequenceOf, claimStep, hsp]
  · have ⟨_, _, hsp⟩ := h
    rw [exec_of_standsAt rfl h]
    simp [sequenceOf, configStep, configS10, hsp]
  · have ⟨_, _, hsp⟩ := h
    rw [exec_of_standsAt rfl h]
    simp [sequenceOf, releaseStep, hsp]

end Sys2Proof.Machine
end

section
/-! PROOF. The state after power-on reset and its first step (R52, R171). -/

namespace Sys2Proof.Machine

/-- After power-on reset no move but the host's has a step, whatever the host and the line hold. -/
theorem enabled_resetWith (p : Params) (ws : List Word40) (bs : List Byte) {m : Move} (hm : m ≠ .host) :
    m.enabled { State.resetWith p with hostWords := ws, lineBytes := bs } = false := by
  cases m with
  | host => exact absurd rfl hm
  | mainline | isr | engSyncEnable | engSyncCtrlb | engSwrstDone | engTx | line => rfl

/-- Settles O13: the reset values hold by definition, and only the host's guard can hold after reset. -/
theorem resetState : Obligations.ResetState := by
  unfold Obligations.ResetState
  intro p
  have noMove (m : Move) : m.enabled (State.resetWith p) = false := by
    by_cases hm : m = .host
    · rw [hm]; rfl
    · exact enabled_resetWith p [] [] hm
  have onlyHost (ws : List Word40) (bs : List Byte) (m : Move)
      (h : m.enabled { State.resetWith p with hostWords := ws, lineBytes := bs } = true) : m = .host := by
    by_contra hm
    exact Bool.false_ne_true ((enabled_resetWith p ws bs hm).symm.trans h)
  exact ⟨rfl, rfl, rfl, rfl, rfl, rfl, rfl, rfl, ⟨0, rfl⟩, rfl, rfl, rfl, ⟨rfl, rfl, rfl, rfl⟩, rfl, noMove, onlyHost⟩

end Sys2Proof.Machine
end

section
/-! PROOF. The transactions the engine ignores (R80, R81), and those that take effect at once (R71, R75, R77). -/

namespace Sys2Proof.Machine

section
variable {s : State}

/-! ## Accesses during an engine reset (R80): the check that R161 puts first -/

theorem write_of_swrstPending (hr : s.eng.swrstPending = true) (e : Event) (p : Bool) (effect : State → State) :
    s.write e p effect = s.ignoredAccess e .resetAccess := by
  simpa [hr] using write_cases s e p effect

theorem readFlag_of_swrstPending (hr : s.eng.swrstPending = true) (entry : Bool → ReadEntry)
    (value : State → Bool × State) :
    s.readFlag entry value =
      (Config.freeBit s.draws,
        { s with draws := s.draws + 1 }.ignoredAccess (.rd (entry (Config.freeBit s.draws))) .resetAccess) := by
  simpa [hr] using readFlag_cases s entry value

theorem readData_of_swrstPending (hr : s.eng.swrstPending = true) :
    s.readData =
      (Config.freeByte s.draws,
        { s with draws := s.draws + 1 }.ignoredAccess (.rd (.data (Config.freeByte s.draws))) .resetAccess) := by
  simpa [hr] using readData_cases s

/-! ## Protected writes (R81): the check that R161 puts second -/

theorem writeProtected_iff_enabled_or_pending (e : Engine) :
    e.writeProtected = true ↔ e.enableApplied = true ∨ e.pendEnable ≠ none := by
  simp [Engine.writeProtected, Option.isSome_iff_ne_none]

theorem write_of_writeProtected (hr : s.eng.swrstPending = false) (hp : s.eng.writeProtected = true) (e : Event)
    (effect : State → State) : s.write e true effect = s.ignoredAccess e .protectedWrite := by
  simpa [hr, hp] using write_cases s e true effect

/-! ## Legal accesses that are not synchronised -/

/-- An INTENSET write is write-one-to-set (R75). -/
theorem writeIntenset_legal (hr : s.eng.swrstPending = false) (v : Bool) :
    s.writeIntenset v =
      { s with eng := { s.eng with intenRxc := s.eng.intenRxc || v }, log := s.log ++ [.wr (.intenset v)] } :=
  write_legal hr (.inl rfl)

/-- A `DATA` read with no byte waiting (R77). -/
theorem readData_empty (hr : s.eng.swrstPending = false) (hx : s.eng.rxc = false) :
    s.readData =
      (Config.freeByte s.draws,
        { s with draws := s.draws + 1 }.ignoredAccess (.rd (.data (Config.freeByte s.draws))) .rxEmptyRead) := by
  simpa [hr, hx] using readData_cases s

end

/-- Settles O54: outside an engine reset and enable protection a write is its entry and its register's own effect, and a
`DATA` read is decided by `INTFLAG.RXC`. -/
theorem unsynchronisedTransactions : Obligations.UnsynchronisedTransactions := by
  unfold Obligations.UnsynchronisedTransactions
  intro s d hr
  refine ⟨fun he hp => ?_, ?_, ?_, readData_full hr, readData_empty hr⟩
  · have unprotected : s.eng.writeProtected = false := (writeProtected_iff _).mpr ⟨he, hp⟩
    exact write_legal hr (.inr unprotected)
  · simpa using writeIntenset_legal hr true
  · simpa using writeIntenset_legal hr false

/-- Settles O56: each register's write is one `State.write` and each flag's read one `State.readFlag`, whose checks decide
alone whether the access is ignored; a `SYNCBUSY` read makes no check. -/
theorem ignoredAccesses : Obligations.IgnoredAccesses := by
  unfold Obligations.IgnoredAccesses
  refine fun s => ⟨fun hr => ?_, fun hr h => ?_⟩
  · have written := write_of_swrstPending hr
    have flagRead := readFlag_of_swrstPending hr
    refine ⟨fun _ => written _ _ _, fun _ => written _ _ _, fun _ => written _ _ _, fun _ => written _ _ _,
      fun _ => written _ _ _, fun _ => written _ _ _, fun _ => written _ _ _, ?_, ?_, ?_, rfl, rfl⟩
    · rintro _ rfl
      exact ⟨flagRead _ _, flagRead _ _, flagRead _ _⟩
    · rintro _ rfl
      exact readData_of_swrstPending hr
    · rw [← hr]; rfl
  · have ignored := write_of_writeProtected hr ((writeProtected_iff_enabled_or_pending _).mpr h)
    exact ⟨fun _ => ignored _ _, fun _ => ignored _ _, fun _ => ignored _ _⟩

end Sys2Proof.Machine
end

section
/-! PROOF. Which words each port takes, what an illegal word does (R88, R153), and what acceptance latches (R93). -/

namespace Sys2Proof

/-! ## The fields of a word (R84, R86) -/

theorem opField_toNat (w : Word40) : (opField w).toNat = w.toNat % 16 := by
  simp [opField, BitVec.extractLsb'_toNat]

/-- `DATA[31:8]` is bits [39:16] of the word. -/
theorem dataField_high (w : Word40) : (dataField w).extractLsb' 8 24 = w.extractLsb' 16 24 := by
  apply BitVec.eq_of_toNat_eq
  simp only [dataField, BitVec.extractLsb'_toNat, Nat.shiftRight_eq_div_pow]
  omega

theorem toNat_append_eq_add {m n : Nat} (x : BitVec m) (y : BitVec n) : (x ++ y).toNat = x.toNat * 2 ^ n + y.toNat := by
  rw [BitVec.toNat_append, ← Nat.shiftLeft_add_eq_or_of_lt y.isLt, Nat.shiftLeft_eq]

/-- The word of a command with a byte operand: 24 zero bits, the byte, and a byte that holds `OP` alone. -/
theorem cmd40_byte (b : Byte) (op : BitVec 4) : cmd40 (b.setWidth 32) false op = 0#24 ++ b ++ (0#4 ++ op) := by
  apply BitVec.eq_of_toNat_eq
  rw [Laws.FormatFields.cmd40_toNat, toNat_append_eq_add, toNat_append_eq_add, toNat_append_eq_add,
    BitVec.toNat_setWidth_of_le (by decide)]
  simp [Nat.mul_comm]

/-! ## The legal words (R88) -/

theorem decodeBare_ok_iff (c : Bool) (data : BitVec 32) (i : Instr) :
    (∃ j, decodeBare c data i = .ok j) ↔ c = false ∧ data = 0 := by
  unfold decodeBare
  cases c with
  | true => simp
  | false => by_cases h : data = 0#32 <;> simp [h]

theorem decodeByte_ok_iff (c : Bool) (data : BitVec 32) (mk : Byte → Instr) :
    (∃ j, decodeByte c data mk = .ok j) ↔ c = false ∧ data.extractLsb' 8 24 = 0 := by
  unfold decodeByte
  cases c with
  | true => simp
  | false => by_cases h : data.extractLsb' 8 24 = 0#24 <;> simp [h]

theorem decodeDispatch_ok_iff (w : Word40) : (∃ i, decodeDispatch w = .ok i) ↔ w = rxisrWord := by
  unfold decodeDispatch
  by_cases h : w = rxisrWord <;> simp [h]

theorem decodeMainline_ok_iff (w : Word40) :
    (∃ i, decodeMainline w = .ok i) ↔
      (1 ≤ w.toNat % 16 ∧ w.toNat % 16 ≤ 6) ∧ zField w = 0 ∧ (w.toNat % 16 ≠ 3 → cField w = false) ∧
        (w.toNat % 16 = 5 ∨ w.toNat % 16 = 6 → (dataField w).extractLsb' 8 24 = 0) ∧
        (w.toNat % 16 = 1 ∨ w.toNat % 16 = 2 ∨ w.toNat % 16 = 4 → dataField w = 0) := by
  unfold decodeMainline
  by_cases hz : zField w = 0
  · rw [if_neg (not_not_intro hz), opField_toNat]
    split
    next op => simp [op, hz, decodeBare_ok_iff]
    next op => simp [op, hz, decodeBare_ok_iff]
    next op => simp [op, hz]
    next op => simp [op, hz, decodeBare_ok_iff]
    next op => simp [op, hz, decodeByte_ok_iff]
    next op => simp [op, hz, decodeByte_ok_iff]
    next op => simp [op]
    next =>
      -- `OP` is none of 1 to 7.
      refine iff_of_false (by simp) ?_
      rintro ⟨⟨hlo, hhi⟩, -⟩
      grind
  · rw [if_pos hz]
    exact iff_of_false (by simp) fun ⟨_, hz', _⟩ => hz hz'

end Sys2Proof

namespace Sys2Proof.Machine

/-- A word no command stands for is accepted as an illegal one (R88). -/
theorem present_of_not_ok {p : Port} {w : Word40} (h : ∀ i, decode p w ≠ .ok i) (s : State) :
    present p w s = .next (s.acceptIllegal w) := by
  cases hd : decode p w with
  | ok i => exact absurd hd (h i)
  | error e => simp only [present, hd]

/-- The log and the faults after an illegal word: `CMD` first, then `FAULT` (R152, R153). -/
theorem acceptIllegal_eq (s : State) (w : Word40) :
    s.acceptIllegal w =
      { s with log := s.log ++ [.cmd w, .fault .illegalCmd], faults := addFault .illegalCmd s.faults } := by
  simp [State.acceptIllegal, State.emit, State.raiseFault]

/-- Settles O3: the decoder's arms say field by field which words they take, and its answer decides what presenting does. -/
theorem legalWords : Obligations.LegalWords := by
  unfold Obligations.LegalWords
  refine ⟨fun w => ?_, decodeDispatch_ok_iff, fun p w s h => ?_⟩
  · rw [← dataField_high]
    exact decodeMainline_ok_iff w
  · rw [present_of_not_ok h, acceptIllegal_eq]

/-! ## Acceptance (R90, R93) -/

/-- With both agents idle a mainline command's meaning is its acceptance (R90). -/
theorem exec_of_idle {i : Instr} {c : Cmd} {s : State} (hc : cmdOf i = some c) (h : s.idle) :
    exec i s = .next (s.accept i c) := by
  rw [exec_mainline hc, mainlineStep_accept h.2 h.1]

/-- Settles O6: on an idle port each command is accepted, which latches its operands and logs its word. -/
theorem acceptanceLatchesOperands : Obligations.AcceptanceLatchesOperands := by
  unfold Obligations.AcceptanceLatchesOperands
  intro s hidle
  have wrnbWord (b : Byte) : encode (.wrnb b) = 0#24 ++ b ++ 0x05#8 := cmd40_byte b 0x5
  have wrblkWord (b : Byte) : encode (.wrblk b) = 0#24 ++ b ++ 0x06#8 := cmd40_byte b 0x6
  refine ⟨exec_of_idle rfl hidle, exec_of_idle rfl hidle, fun c r => exec_of_idle rfl hidle, exec_of_idle rfl hidle,
    fun b => ?_, fun b => ?_⟩
  · rw [exec_of_idle rfl hidle, ← wrnbWord]; rfl
  · rw [exec_of_idle rfl hidle, ← wrblkWord]; rfl

end Sys2Proof.Machine
end

section
/-! PROOF. CLAIM and RELEASE (R98, R99): each numbered step, the whole commands from an idle port, and the round trips
(R100). -/

namespace Sys2Proof.Machine

/-- A run of a command takes its first step and goes on from there. -/
theorem execTimes_succ_of_next {i : Instr} {s t : State} (n : Nat) (h : exec i s = .next t) :
    execTimes (n + 1) i s = execTimes n i t := by
  simp only [execTimes, h]

section
variable {s : State}

/-! ## The numbered steps C0–C2 and L0–L2 -/

theorem exec_claim_of_standsAt_zero (h : s.standsAt .claim 0) :
    exec .claim s = .next ((s.capPinmux .tx s.uartFn).gotoStep 1) := by
  have ⟨_, _, hsp⟩ := h
  rw [exec_of_standsAt rfl h]
  simp only [sequenceOf, claimStep, hsp]

theorem exec_claim_of_standsAt_one (h : s.standsAt .claim 1) :
    exec .claim s = .next ((s.capPinmux .rx s.uartFn).gotoStep 2) := by
  have ⟨_, _, hsp⟩ := h
  rw [exec_of_standsAt rfl h]
  simp only [sequenceOf, claimStep, hsp]

theorem exec_claim_of_standsAt_two (h : s.standsAt .claim 2) :
    exec .claim s = .next ({ s with active := true }.complete false) := by
  have ⟨_, _, hsp⟩ := h
  rw [exec_of_standsAt rfl h]
  simp only [sequenceOf, claimStep, hsp]

theorem exec_release_of_standsAt_zero (h : s.standsAt .release 0) :
    exec .release s = .next ({ s with active := false }.gotoStep 1) := by
  have ⟨_, _, hsp⟩ := h
  rw [exec_of_standsAt rfl h]
  simp only [sequenceOf, releaseStep, hsp]

theorem exec_release_of_standsAt_one (h : s.standsAt .release 1) :
    exec .release s = .next ((s.capPinmux .tx .gpio).gotoStep 2) := by
  have ⟨_, _, hsp⟩ := h
  rw [exec_of_standsAt rfl h]
  simp only [sequenceOf, releaseStep, hsp]

theorem exec_release_of_standsAt_two (h : s.standsAt .release 2) :
    exec .release s = .next ((s.capPinmux .rx .gpio).complete false) := by
  have ⟨_, _, hsp⟩ := h
  rw [exec_of_standsAt rfl h]
  simp only [sequenceOf, releaseStep, hsp]

end

/-! ## The whole commands -/

/-- The log of a whole pin command, its four entries appended one by one. -/
theorem append_four_events (log : List Event) (w x y z : Event) :
    log ++ [w, x, y, z] = log ++ [w] ++ [x] ++ [y] ++ [z] := by
  simp only [List.append_assoc, List.cons_append, List.nil_append]

/-- Settles O15: the three steps are C0 to C2, and from an idle port they follow the acceptance one by one. -/
theorem claimSequence : Obligations.ClaimSequence := by
  unfold Obligations.ClaimSequence
  refine fun s =>
    ⟨exec_claim_of_standsAt_zero, exec_claim_of_standsAt_one, exec_claim_of_standsAt_two, fun ⟨hcur, hisr⟩ => ?_⟩
  rw [execTimes_succ_of_next 3 (exec_of_idle rfl ⟨hcur, hisr⟩),
    execTimes_succ_of_next 2 (exec_claim_of_standsAt_zero ?_),
    execTimes_succ_of_next 1 (exec_claim_of_standsAt_one ?_),
    execTimes_succ_of_next 0 (exec_claim_of_standsAt_two ?_), append_four_events, hcur]
  · rfl
  -- The states between stand at C0, C1 and C2 in turn, the ISR still idle.
  all_goals exact ⟨hisr, rfl, rfl⟩

/-- Settles O16: the three steps are L0 to L2, and from an idle port they follow the acceptance one by one. -/
theorem releaseSequence : Obligations.ReleaseSequence := by
  unfold Obligations.ReleaseSequence
  refine fun s =>
    ⟨exec_release_of_standsAt_zero, exec_release_of_standsAt_one, fun h => ?_, fun ⟨hcur, hisr⟩ => ?_⟩
  · rw [exec_release_of_standsAt_two h, List.append_cons]
    rfl
  · rw [execTimes_succ_of_next 3 (exec_of_idle rfl ⟨hcur, hisr⟩),
      execTimes_succ_of_next 2 (exec_release_of_standsAt_zero ?_),
      execTimes_succ_of_next 1 (exec_release_of_standsAt_one ?_),
      execTimes_succ_of_next 0 (exec_release_of_standsAt_two ?_), append_four_events, hcur]
    · rfl
    -- The states between stand at L0, L1 and L2 in turn, the ISR still idle.
    all_goals exact ⟨hisr, rfl, rfl⟩

/-! ## The round trips (R100) -/

/-- What a whole CLAIM leaves behind: the next command finds an idle port, the pins claimed, and no new fault. -/
theorem exists_execTimes_claim {s : State} (h : s.idle) :
    ∃ t, execTimes 4 .claim s = .next t ∧ t.idle ∧ t.active = true ∧ t.pinsAreUart ∧ t.faults = s.faults := by
  obtain ⟨_, _, _, whole⟩ := claimSequence s
  exact ⟨_, whole h, h, rfl, ⟨rfl, rfl⟩, rfl⟩

/-- What a whole RELEASE leaves behind: the next command finds an idle port, the pins released, and no new fault. -/
theorem exists_execTimes_release {s : State} (h : s.idle) :
    ∃ t, execTimes 4 .release s = .next t ∧ t.idle ∧ t.active = false ∧ t.plat.txPinFn = .gpio ∧
      t.plat.rxPinFn = .gpio ∧ t.faults = s.faults := by
  obtain ⟨_, _, _, whole⟩ := releaseSequence s
  exact ⟨_, whole h, h, rfl, rfl, rfl, rfl⟩

/-- Settles O17: each command of a round trip leaves an idle port for the next, and the last one decides the flag and the
pins. -/
theorem pinRoundTrip : Obligations.PinRoundTrip := by
  unfold Obligations.PinRoundTrip
  refine fun s h => ⟨?_, ?_⟩
  · obtain ⟨a, ha, aIdle, _, _, aFaults⟩ := exists_execTimes_claim h
    obtain ⟨b, hb, bIdle, _, _, _, bFaults⟩ := exists_execTimes_release aIdle
    obtain ⟨c, hc, cIdle, cActive, cPins, cFaults⟩ := exists_execTimes_claim bIdle
    exact ⟨a, b, c, ha, hb, hc, cActive, cPins, cFaults.trans (bFaults.trans aFaults), cIdle⟩
  · obtain ⟨a, ha, aIdle, _, _, _, aFaults⟩ := exists_execTimes_release h
    obtain ⟨b, hb, bIdle, _, _, bFaults⟩ := exists_execTimes_claim aIdle
    obtain ⟨c, hc, cIdle, cActive, cTx, cRx, cFaults⟩ := exists_execTimes_release bIdle
    exact ⟨a, b, c, ha, hb, hc, cActive, cTx, cRx, cFaults.trans (bFaults.trans aFaults), cIdle⟩

end Sys2Proof.Machine
end

section
/-! PROOF. CONFIG's steps S7 to S12 and S19 (R109, R111–R113, R119): the pins, the clocks and the line. -/

namespace Sys2Proof.Machine

/-- A CONFIG that stands at step `n` takes the step its sequence gives for the pointer `n` (R20, R102), whatever the
operands of the command word: the steps read the latches. -/
theorem exec_config_of_standsAt {s : State} {n : Nat} {c : Bool} {r : BitVec 32} (h : s.standsAt .config n) :
    exec (.config c r) s = configStep { s with sp := n } := by
  have ⟨_, _, hsp⟩ := h
  subst hsp
  exact exec_of_standsAt rfl h

/-- Settles O22: at a known pointer CONFIG's sequence is its one numbered step, which computes the stated state. -/
theorem configClaimsAndRoutes : Obligations.ConfigClaimsAndRoutes := by
  unfold Obligations.ConfigClaimsAndRoutes
  refine fun s c r => ⟨?_, ?_, ?_, ?_, ?_, ?_, ?_⟩
  -- S7 to S12 and S19 in order: each is `configStep` evaluated at its own number.
  all_goals exact exec_config_of_standsAt

end Sys2Proof.Machine
end

section
/-! PROOF. The divisor datapath (42_baud_divisor.md): its fragments are slices of one reciprocal (R123–R125), its registers
never truncate (R126–R130), and the closed form of `op1` with what follows from it (R131, R132, R136). -/

namespace Sys2Proof.Machine

/-! ## The fragments (R123–R125) -/

/-- A clock that is not 0, as a number. -/
theorem toNat_pos_of_ne_zero {f : BitVec 32} (hf : f ≠ 0) : 0 < f.toNat :=
  Nat.pos_of_ne_zero fun h => hf (BitVec.eq_of_toNat_eq h)

/-- R123: the top fragment is the whole reciprocal at precision 32; it fits in its 33 bits even at `F = 1`. -/
theorem reset_frag0_toNat (f : BitVec 32) : (Datapath.reset f).frag0.toNat = 2 ^ 32 / f.toNat := by
  have hle : 2 ^ 32 / f.toNat ≤ 2 ^ 32 := Nat.div_le_self _ _
  rw [Datapath.reset, reciprocal, BitVec.toNat_ofNat, Nat.mod_eq_of_lt (by omega)]

theorem reset_frag0_toNat_le (f : BitVec 32) : (Datapath.reset f).frag0.toNat ≤ 2 ^ 32 :=
  reset_frag0_toNat f ▸ Nat.div_le_self _ _

/-- R124: a masked reciprocal is its low ten bits. -/
theorem toNat_ofNat_and_mask (n : Nat) : (BitVec.ofNat 10 (n &&& 0x3FF)).toNat = n % 1024 := by
  rw [BitVec.toNat_ofNat, Nat.and_two_pow_sub_one_eq_mod n 10, Nat.mod_mod]

theorem reset_frag1_toNat (f : BitVec 32) : (Datapath.reset f).frag1.toNat = 2 ^ 42 / f.toNat % 1024 :=
  toNat_ofNat_and_mask _

theorem reset_frag2_toNat (f : BitVec 32) : (Datapath.reset f).frag2.toNat = 2 ^ 52 / f.toNat % 1024 :=
  toNat_ofNat_and_mask _

theorem reset_frag3_toNat (f : BitVec 32) : (Datapath.reset f).frag3.toNat = 2 ^ 62 / f.toNat % 1024 :=
  toNat_ofNat_and_mask _

/-- R125: a reciprocal at a lower precision is the one at a higher precision without its low bits. -/
theorem two_pow_div_eq_div_two_pow {k m : Nat} (hkm : k ≤ m) (f : Nat) : 2 ^ k / f = 2 ^ m / f / 2 ^ (m - k) := by
  rw [Nat.div_right_comm, Nat.pow_div (Nat.sub_le m k) (by decide), Nat.sub_sub_self hkm]

/-- R125: the fragments are the slices of `Q = floor(2^62 / F)`. -/
theorem reset_fragments_eq_slices (f : BitVec 32) :
    (Datapath.reset f).frag0.toNat = 2 ^ 62 / f.toNat / 2 ^ 30 ∧
    (Datapath.reset f).frag1.toNat = 2 ^ 62 / f.toNat / 2 ^ 20 % 2 ^ 10 ∧
    (Datapath.reset f).frag2.toNat = 2 ^ 62 / f.toNat / 2 ^ 10 % 2 ^ 10 ∧
    (Datapath.reset f).frag3.toNat = 2 ^ 62 / f.toNat % 2 ^ 10 := by
  rw [reset_frag0_toNat, reset_frag1_toNat, reset_frag2_toNat, reset_frag3_toNat,
    two_pow_div_eq_div_two_pow (by decide : 32 ≤ 62), two_pow_div_eq_div_two_pow (by decide : 42 ≤ 62),
    two_pow_div_eq_div_two_pow (by decide : 52 ≤ 62)]
  exact ⟨rfl, rfl, rfl, rfl⟩

/-- R125: the slices put together again are `Q`. -/
theorem reciprocal_eq_sum_fragments (f : BitVec 32) :
    2 ^ 62 / f.toNat =
      (Datapath.reset f).frag0.toNat * 2 ^ 30 + (Datapath.reset f).frag1.toNat * 2 ^ 20 +
        (Datapath.reset f).frag2.toNat * 2 ^ 10 + (Datapath.reset f).frag3.toNat := by
  obtain ⟨h0, h1, h2, h3⟩ := reset_fragments_eq_slices f
  omega

/-! ## The stages (R126–R130, R133) -/

/-- R133: a masked fragment times the rate is below `2^42`. -/
theorem rate_mul_frag_lt (r : BitVec 32) (frag : BitVec 10) : r.toNat * frag.toNat < 2 ^ 42 :=
  (Nat.mul_lt_mul'' r.isLt frag.isLt).trans_eq (by decide)

/-- A masked stage whose partial result is at most the rate hands on a partial result at most the rate. -/
theorem stage_shift_le_rate (r : BitVec 32) (frag : BitVec 10) {p : Nat} (hp : p ≤ r.toNat) :
    (r.toNat * frag.toNat + p) >>> 10 ≤ r.toNat := by
  have hprod : r.toNat * frag.toNat ≤ r.toNat * 1023 := Nat.mul_le_mul_left _ (by omega)
  rw [Nat.shiftRight_eq_div_pow]
  omega

/-- R126–R128: the 33-bit register of a masked stage holds the exact result. -/
theorem stage10_toNat (r : BitVec 32) (frag : BitVec 10) {p : Nat} (hp : p ≤ r.toNat) :
    (stage10 r frag p).toNat = (r.toNat * frag.toNat + p) >>> 10 := by
  have hle := stage_shift_le_rate r frag hp
  rw [stage10, BitVec.toNat_ofNat, Nat.mod_eq_of_lt (by omega)]

theorem stage10_toNat_le_rate (r : BitVec 32) (frag : BitVec 10) {p : Nat} (hp : p ≤ r.toNat) :
    (stage10 r frag p).toNat ≤ r.toNat :=
  stage10_toNat r frag hp ▸ stage_shift_le_rate r frag hp

/-- R129, R133: the 52-bit register of the final stage holds the exact result, because the sum is below `2^64`. -/
theorem stage12_toNat (r : BitVec 32) {frag : BitVec 33} {p : Nat} (hfrag : frag.toNat ≤ 2 ^ 32) (hp : p ≤ r.toNat) :
    (stage12 r frag p).toNat = (r.toNat * frag.toNat + p) >>> 12 := by
  have hprod : r.toNat * frag.toNat ≤ r.toNat * 2 ^ 32 := Nat.mul_le_mul_left _ hfrag
  have hlt : (r.toNat * frag.toNat + p) >>> 12 < 2 ^ 52 := by
    rw [Nat.shiftRight_eq_div_pow]
    omega
  rw [stage12, BitVec.toNat_ofNat, Nat.mod_eq_of_lt hlt]

section
variable (d : Datapath) (r : BitVec 32)

theorem run_t3_toNat : (d.run r).t3.toNat = (r.toNat * d.frag3.toNat) >>> 10 := stage10_toNat r d.frag3 (Nat.zero_le _)

theorem run_t3_toNat_le_rate : (d.run r).t3.toNat ≤ r.toNat := stage10_toNat_le_rate r d.frag3 (Nat.zero_le _)

theorem run_t2_toNat : (d.run r).t2.toNat = (r.toNat * d.frag2.toNat + (d.run r).t3.toNat) >>> 10 :=
  stage10_toNat r d.frag2 (run_t3_toNat_le_rate d r)

theorem run_t2_toNat_le_rate : (d.run r).t2.toNat ≤ r.toNat := stage10_toNat_le_rate r d.frag2 (run_t3_toNat_le_rate d r)

theorem run_t1_toNat : (d.run r).t1.toNat = (r.toNat * d.frag1.toNat + (d.run r).t2.toNat) >>> 10 :=
  stage10_toNat r d.frag1 (run_t2_toNat_le_rate d r)

theorem run_t1_toNat_le_rate : (d.run r).t1.toNat ≤ r.toNat := stage10_toNat_le_rate r d.frag1 (run_t2_toNat_le_rate d r)

theorem run_op1_toNat (h0 : d.frag0.toNat ≤ 2 ^ 32) :
    (d.run r).op1.toNat = (r.toNat * d.frag0.toNat + (d.run r).t1.toNat) >>> 12 :=
  stage12_toNat r h0 (run_t1_toNat_le_rate d r)

end

/-- R130: the wrapped result on integers. -/
theorem wrapDivisor_toNat (n : Nat) : ((wrapDivisor n).toNat : ℤ) = (65535 - (n : ℤ)) % 65536 := by
  rw [wrapDivisor, BitVec.toNat_ofInt]
  omega

/-- R130: the result is `65535 - op1` modulo `2^16`, on integers. -/
theorem baudDivisor_toNat (f r : BitVec 32) :
    ((baudDivisor f r).toNat : ℤ) = (65535 - (((Datapath.reset f).run r).op1.toNat : ℤ)) % 65536 :=
  wrapDivisor_toNat _

/-- An `op1` of at most 16 bits is subtracted without a wrap. -/
theorem baudDivisor_toNat_of_op1_le {f r : BitVec 32} {n : Nat} (hop : ((Datapath.reset f).run r).op1.toNat = n)
    (hn : n ≤ 65535) : (baudDivisor f r).toNat = 65535 - n := by
  have hdiv := baudDivisor_toNat f r
  omega

/-- Settles O29: each stage's bound by the rate is the next stage's premise for holding its exact result. -/
theorem stagesExact : Obligations.StagesExact := by
  unfold Obligations.StagesExact
  intro f r hf
  have t3Lt : ((Datapath.reset f).run r).t3.toNat < 2 ^ 32 := (run_t3_toNat_le_rate _ r).trans_lt r.isLt
  exact ⟨run_t3_toNat _ r, rate_mul_frag_lt r _, t3Lt, run_t2_toNat _ r, run_t1_toNat _ r,
    run_op1_toNat _ r (reset_frag0_toNat_le f), baudDivisor_toNat f r⟩

/-! ## The closed form (R131) -/

/-- The step of R131: a floor inside a sum goes out, `floor((a + floor(b / m)) / n) = floor((a * m + b) / (m * n))`. -/
theorem add_div_div (a b n : Nat) {m : Nat} (hm : 0 < m) : (a + b / m) / n = (a * m + b) / (m * n) := by
  rw [← Nat.div_div_eq_div_mul, Nat.add_comm (a * m) b, Nat.add_mul_div_right b a hm, Nat.add_comm]

/-- R131: `op1 = floor(R * Q / 2^42)`. -/
theorem op1_toNat_eq (f r : BitVec 32) :
    ((Datapath.reset f).run r).op1.toNat = r.toNat * (2 ^ 62 / f.toNat) / 2 ^ 42 := by
  rw [run_op1_toNat _ r (reset_frag0_toNat_le f), run_t1_toNat, run_t2_toNat, run_t3_toNat]
  simp only [Nat.shiftRight_eq_div_pow]
  rw [add_div_div _ _ (2 ^ 10) (by decide), add_div_div _ _ (2 ^ 12) (by decide), ← Nat.add_assoc, ← Nat.add_assoc,
    add_div_div _ _ _ (by decide), reciprocal_eq_sum_fragments f]
  congr 1
  ring

/-- Settles O31: three floors go out of the stages, and the slices of `Q` are put together again. -/
theorem closedForm : Obligations.ClosedForm := by
  unfold Obligations.ClosedForm
  exact fun f r _ => op1_toNat_eq f r

/-! ## Exactness (R132, R135 case (c), R136) -/

/-- R135 case (c), in naturals scaled by `F`: where `x ≤ c + 1` and the loss `δ` is positive but takes `x` no lower than
`c`, `op1` is `c`. -/
theorem op1_toNat_of_loss {f r : BitVec 32} {c : Nat} (hf : f ≠ 0) (hup : r.toNat * 2 ^ 20 ≤ (c + 1) * f.toNat)
    (hpos : 0 < r.toNat * (2 ^ 62 % f.toNat))
    (hloss : c * f.toNat * 2 ^ 42 + r.toNat * (2 ^ 62 % f.toNat) ≤ r.toNat * 2 ^ 20 * 2 ^ 42) :
    ((Datapath.reset f).run r).op1.toNat = c := by
  have hF := toNat_pos_of_ne_zero hf
  -- The loss is what the rounded reciprocal leaves out of the exact quotient, both scaled by `F`.
  have hsplit : r.toNat * (2 ^ 62 / f.toNat) * f.toNat + r.toNat * (2 ^ 62 % f.toNat) = r.toNat * 2 ^ 20 * 2 ^ 42 := by
    rw [Nat.mul_assoc, ← Nat.mul_add, Nat.div_add_mod', Nat.mul_assoc, ← Nat.pow_add]
  rw [op1_toNat_eq]
  refine Nat.div_eq_of_lt_le (Nat.le_of_mul_le_mul_right (c := f.toNat) ?_ hF)
    (Nat.lt_of_mul_lt_mul_right (a := f.toNat) ?_)
  · rw [Nat.mul_right_comm c]
    exact Nat.le_of_add_le_add_right (hloss.trans_eq hsplit.symm)
  · rw [Nat.mul_right_comm (c + 1)]
    omega

/-- A clock leaves a remainder of `2^62` unless it is a power of two. -/
theorem two_pow_mod_pos {n : Nat} (h : ∀ k, n ≠ 2 ^ k) : 0 < 2 ^ 62 % n := by
  refine Nat.pos_of_ne_zero fun hmod => ?_
  obtain ⟨k, _, hk⟩ := (Nat.dvd_prime_pow Nat.prime_two).1 (Nat.dvd_of_mod_eq_zero hmod)
  exact h k hk

/-- R132: at `16 * R = F` the quotient is the integer 65536, so any loss takes `op1` to 65535. -/
theorem op1_toNat_of_sixteen_mul_rate_eq {f r : BitVec 32} (hf : f ≠ 0) (hr : 16 * r.toNat = f.toNat)
    (hpow : ∀ k, f.toNat ≠ 2 ^ k) : ((Datapath.reset f).run r).op1.toNat = 65535 := by
  have hF := toNat_pos_of_ne_zero hf
  have hmod : 2 ^ 62 % f.toNat < 2 ^ 32 := (Nat.mod_lt _ hF).trans f.isLt
  have hle : r.toNat * (2 ^ 62 % f.toNat) ≤ r.toNat * 2 ^ 32 := Nat.mul_le_mul_left _ hmod.le
  exact op1_toNat_of_loss hf (by omega) (Nat.mul_pos (by omega) (two_pow_mod_pos hpow)) (by omega)

/-- Settles O32: the values outside the domain follow from the closed form, and step S14 has no case that faults. -/
theorem divisorWraps : Obligations.DivisorWraps := by
  unfold Obligations.DivisorWraps
  refine ⟨fun f hf => ?_, fun f r _ _ => baudDivisor_toNat f r, by decide, fun f r hf hr hpow => ?_, fun s h =>
    ⟨_, exec_config_of_standsAt h, rfl⟩⟩
  · have hop : ((Datapath.reset f).run 0).op1.toNat = 0 := by rw [op1_toNat_eq]; simp
    exact ⟨BitVec.eq_of_toNat_eq hop, BitVec.eq_of_toNat_eq (baudDivisor_toNat_of_op1_le hop (by decide))⟩
  · have hop := op1_toNat_of_sixteen_mul_rate_eq hf hr hpow
    exact ⟨BitVec.eq_of_toNat_eq hop, BitVec.eq_of_toNat_eq (baudDivisor_toNat_of_op1_le hop le_rfl)⟩

/-! ## The listed clocks (R136) -/

/-- R136's formula where `op1 = ceil(x) - 1`, for a rate of the domain. -/
theorem baudDivisor_toNat_of_op1 {f r : BitVec 32} {c : Nat} (hdom : 16 * r.toNat < f.toNat)
    (hlow : c * f.toNat < r.toNat * 2 ^ 20) (hup : r.toNat * 2 ^ 20 ≤ (c + 1) * f.toNat)
    (hop : ((Datapath.reset f).run r).op1.toNat = c) :
    ((baudDivisor f r).toNat : ℤ) = 65536 - ⌈(r.toNat * 2 ^ 20 : ℚ) / f.toNat⌉ := by
  have hF : (0 : ℚ) < f.toNat := by exact_mod_cast (by omega : 0 < f.toNat)
  have hc : c < 65536 := Nat.lt_of_mul_lt_mul_right (a := f.toNat) (by omega)
  have hdiv := baudDivisor_toNat_of_op1_le hop (by omega)
  have hceil : ⌈(r.toNat * 2 ^ 20 : ℚ) / f.toNat⌉ = (c : ℤ) + 1 := by
    rw [Int.ceil_eq_iff, lt_div_iff₀ hF, div_le_iff₀ hF]
    push_cast
    rw [add_sub_cancel_right]
    exact ⟨by exact_mod_cast hlow, by exact_mod_cast hup⟩
  omega

/-- R136's condition on a clock `n`: the distances `R * 2^20 - c * n` of the rates of the domain from the multiple of `n`
below are never under a bound `b` that no loss in the domain exceeds. -/
def FarFromMultiples (n b : Nat) : Prop :=
  n * (2 ^ 62 % n) ≤ 2 ^ 46 * b ∧
    ∀ r c, 16 * r < n → c * n < r * 2 ^ 20 → b ≤ r * 2 ^ 20 - c * n

/-- Every distance is a multiple of what the clock shares with `2^20`. -/
theorem farFromMultiples_gcd {n : Nat} (h : n * (2 ^ 62 % n) ≤ 2 ^ 46 * Nat.gcd n (2 ^ 20)) :
    FarFromMultiples n (Nat.gcd n (2 ^ 20)) := by
  refine ⟨h, fun r c _ hlow => Nat.le_of_dvd (Nat.sub_pos_of_lt hlow) (Nat.dvd_sub ?_ ?_)⟩
  · exact (Nat.gcd_dvd_right _ _).mul_left r
  · exact (Nat.gcd_dvd_left _ _).mul_left c

/-- An inverse `u` of `2^20` gives the one rate at each distance; none under `b` is in the domain. -/
theorem farFromMultiples_of_inverse {n b u : Nat} (h : n * (2 ^ 62 % n) ≤ 2 ^ 46 * b) (hu : u * 2 ^ 20 % n = 1)
    (hnone : ∀ m < b, 0 < m → n ≤ 16 * (u * m % n)) : FarFromMultiples n b := by
  refine ⟨h, fun r c hdom hlow => Nat.le_of_not_lt fun hlt => ?_⟩
  have hrate : u * (r * 2 ^ 20 - c * n) % n = r :=
    calc u * (r * 2 ^ 20 - c * n) % n
      _ = (u * (r * 2 ^ 20 - c * n) + u * c * n) % n := (Nat.add_mul_mod_self_right _ _ _).symm
      _ = u * 2 ^ 20 * r % n := by
        rw [Nat.mul_assoc u c n, ← Nat.mul_add, Nat.sub_add_cancel hlow.le, Nat.mul_comm r, Nat.mul_assoc]
      _ = r := by rw [Nat.mul_mod, hu, Nat.one_mul, Nat.mod_mod, Nat.mod_eq_of_lt (by omega)]
  have hout := hnone _ hlt (Nat.sub_pos_of_lt hlow)
  omega

/-- R136: at a clock that meets the condition, the loss of a rate of the domain never reaches the multiple below. -/
theorem FarFromMultiples.loss_le {n b r c : Nat} (h : FarFromMultiples n b) (hdom : 16 * r < n)
    (hlow : c * n < r * 2 ^ 20) : c * n * 2 ^ 42 + r * (2 ^ 62 % n) ≤ r * 2 ^ 20 * 2 ^ 42 := by
  obtain ⟨hbound, hfar⟩ := h
  have hscaled : 16 * r * (2 ^ 62 % n) ≤ n * (2 ^ 62 % n) := Nat.mul_le_mul_right _ hdom.le
  have := hfar r c hdom hlow
  rw [Nat.mul_assoc] at hscaled
  omega

/-- The clocks of R136. -/
def listedClocks : List (BitVec 32) :=
  [48000000, 1000000, 2000000, 3686400, 4000000, 7372800, 8000000, 11059200, 12000000, 14745600, 16000000, 18432000,
    20000000, 24000000, 32000000, 36000000, 40000000, 46000000, 47999999]

/-- Every listed clock but the odd one shares enough with `2^20`; for that one the five candidates are out of the domain. -/
theorem farFromMultiples_of_listed {f : BitVec 32} (hf : f ∈ listedClocks) : ∃ b, FarFromMultiples f.toNat b := by
  have shared : ∀ g ∈ listedClocks, g = 47999999 ∨
      g.toNat * (2 ^ 62 % g.toNat) ≤ 2 ^ 46 * Nat.gcd g.toNat (2 ^ 20) := by
    simp [listedClocks]
  rcases shared f hf with rfl | h
  · exact ⟨6, farFromMultiples_of_inverse (u := 37265670) (by decide) (by decide) (by decide)⟩
  · exact ⟨_, farFromMultiples_gcd h⟩

theorem ne_zero_and_two_pow_mod_pos_of_listed : ∀ f ∈ listedClocks, f ≠ 0 ∧ 0 < 2 ^ 62 % f.toNat := by
  simp [listedClocks]

/-- Settles O34: at a listed clock no rate of the domain is in case (b) of R135, so `op1` is one below the ceiling. -/
theorem exactAtListedClocks : Obligations.ExactAtListedClocks := by
  unfold Obligations.ExactAtListedClocks
  intro f r hlisted hr hdom
  obtain ⟨hf, hmod⟩ := ne_zero_and_two_pow_mod_pos_of_listed f hlisted
  obtain ⟨b, hfar⟩ := farFromMultiples_of_listed hlisted
  -- `c` is the largest number with `c * F` below the scaled rate, that is `ceil(x) - 1`.
  obtain ⟨c, hlow, hup⟩ : ∃ c, c * f.toNat < r.toNat * 2 ^ 20 ∧ r.toNat * 2 ^ 20 ≤ (c + 1) * f.toNat := by
    refine ⟨(r.toNat * 2 ^ 20 - 1) / f.toNat, ?_, ?_⟩
    · have := Nat.div_mul_le_self (r.toNat * 2 ^ 20 - 1) f.toNat
      omega
    · have := Nat.lt_mul_div_succ (r.toNat * 2 ^ 20 - 1) (toNat_pos_of_ne_zero hf)
      rw [Nat.mul_comm f.toNat] at this
      omega
  exact baudDivisor_toNat_of_op1 hdom hlow hup
    (op1_toNat_of_loss hf hup (Nat.mul_pos hr hmod) (hfar.loss_le hdom hlow))

end Sys2Proof.Machine
end

section
/-! PROOF. The parameters and the fragments are constants of a run (R123–R125, R172): no move writes one. -/

namespace Sys2Proof.Machine

/-- `t` has the parameters and the fragments of `s`. -/
def SameConstants (s t : State) : Prop :=
  t.params = s.params ∧ t.dp.frag0 = s.dp.frag0 ∧ t.dp.frag1 = s.dp.frag1 ∧ t.dp.frag2 = s.dp.frag2 ∧
    t.dp.frag3 = s.dp.frag3

section
variable {s t : State}

theorem SameConstants.of_eq (hp : t.params = s.params) (hd : t.dp = s.dp) : SameConstants s t := by
  unfold SameConstants
  simp only [hp, hd, and_self]

theorem SameConstants.refl (s : State) : SameConstants s s := .of_eq rfl rfl

theorem BusFrame.sameConstants (h : BusFrame s t) : SameConstants s t := .of_eq (by rw [h]) (by rw [h])

/-- S14 alone touches the datapath, and it keeps the fragments. -/
theorem configS14_sameConstants (s : State) : SameConstants s (configS14 s) := ⟨rfl, dividedDatapath_fragments s⟩

theorem claimStep_sameConstants (h : claimStep s = .next t) : SameConstants s t := by
  rcases claimStep_cases h with ⟨_, rfl⟩ | ⟨_, rfl⟩ | ⟨_, rfl⟩
  all_goals exact .of_eq rfl rfl

theorem releaseStep_sameConstants (h : releaseStep s = .next t) : SameConstants s t := by
  rcases releaseStep_cases h with ⟨_, rfl⟩ | ⟨_, rfl⟩ | ⟨_, rfl⟩
  all_goals exact .of_eq rfl rfl

theorem configStep_sameConstants (h : configStep s = .next t) : SameConstants s t := by
  rcases configStep_cases h with ⟨_, rfl⟩ | ⟨_, rfl⟩ | ⟨_, rfl⟩ | ⟨_, rfl⟩ | ⟨_, rfl⟩ | ⟨_, rfl⟩ | ⟨_, rfl⟩ | ⟨_, rfl⟩ |
    ⟨_, rfl⟩ | ⟨_, rfl⟩ | ⟨_, rfl⟩ | ⟨_, rfl⟩ | ⟨_, rfl⟩ | ⟨_, rfl⟩ | ⟨_, rfl⟩ | ⟨_, rfl⟩ | ⟨_, rfl⟩ | ⟨_, rfl⟩ |
    ⟨_, rfl⟩ | ⟨_, rfl⟩ | ⟨_, rfl⟩ | ⟨_, rfl⟩ | ⟨_, rfl⟩
  -- S0 to S22 in order: a register transaction touches no UCB field, and of the other steps only S14 writes the datapath.
  exacts [(busFrame_readEnable { s with seq := .disabled }).sameConstants, .of_eq rfl rfl, .of_eq rfl rfl,
    (busFrame_writeEnable s false).sameConstants, .of_eq rfl rfl, (busFrame_writeSwrst s true).sameConstants,
    .of_eq rfl rfl, .of_eq rfl rfl, .of_eq rfl rfl, .of_eq rfl rfl, .of_eq rfl rfl, .of_eq rfl rfl, .of_eq rfl rfl,
    (busFrame_writeCtrla s _).sameConstants, configS14_sameConstants s, (busFrame_writeBaud s _).sameConstants,
    (busFrame_writeCtrlb s _).sameConstants, .of_eq rfl rfl, (busFrame_writeIntenset s true).sameConstants,
    .of_eq rfl rfl, (busFrame_writeEnable { s with seq := .enabled } true).sameConstants, .of_eq rfl rfl, .of_eq rfl rfl]

theorem rdyqStep_sameConstants (h : rdyqStep s = .next t) : SameConstants s t := by
  obtain ⟨_, rfl⟩ := rdyqStep_cases h
  exact (busFrame_readDre s).sameConstants

theorem wrnbStep_sameConstants (h : wrnbStep s = .next t) : SameConstants s t := by
  obtain ⟨_, rfl⟩ := wrnbStep_cases h
  exact (busFrame_writeData s _).sameConstants

theorem wrblkStep_sameConstants (h : wrblkStep s = .next t) : SameConstants s t := by
  rcases wrblkStep_cases h with ⟨_, rfl⟩ | ⟨_, rfl⟩
  · exact (busFrame_readDre s).sameConstants
  · exact (busFrame_writeData s _).sameConstants

theorem sequenceOf_sameConstants {c : Cmd} (h : sequenceOf c s = .next t) : SameConstants s t := by
  cases c with
  | claim => exact claimStep_sameConstants h
  | release => exact releaseStep_sameConstants h
  | config => exact configStep_sameConstants h
  | rdyq => exact rdyqStep_sameConstants h
  | wrnb => exact wrnbStep_sameConstants h
  | wrblk => exact wrblkStep_sameConstants h

theorem rxisr_sameConstants (h : exec .rxisr s = .next t) : SameConstants s t := by
  rcases rxisr_cases h with ⟨_, _, rfl⟩ | ⟨_, _, rfl⟩ | ⟨_, rfl⟩ | ⟨_, rfl⟩ | ⟨_, rfl⟩
  · exact .of_eq rfl rfl
  · exact .refl _
  · unfold rxisrI0
    simp only
    split <;> exact (busFrame_readRxc s).sameConstants
  · exact (busFrame_readData s).sameConstants
  · exact .of_eq rfl rfl

theorem runMove_sameConstants {m : Move} (h : runMove m s = .next t) : SameConstants s t := by
  rcases runMove_cases h with rfl | ⟨_, _, w, rest, i, c, _, _, _, rfl⟩ | ⟨_, _, w, rest, e, _, _, rfl⟩ |
    ⟨_, _, c, _, hseq⟩ | ⟨_, hisr⟩ | ⟨_, rfl⟩ | ⟨_, rfl⟩ | ⟨_, rfl⟩ | ⟨_, rfl⟩ | ⟨_, rfl⟩
  · exact .refl _
  · exact .of_eq (accept_params _ i c) (accept_dp _ i c)
  · exact .of_eq rfl rfl
  · exact sequenceOf_sameConstants hseq
  · exact rxisr_sameConstants hisr
  · exact (busFrame_engSyncEnable s).sameConstants
  · exact (busFrame_engSyncCtrlb s).sameConstants
  · exact (busFrame_engSwrstDone s).sameConstants
  · exact (busFrame_engTx s).sameConstants
  · exact .of_eq (by rw [lineStep_frame]) (by rw [lineStep_frame])

theorem step_sameConstants (h : step s = .next t) : SameConstants s t := by
  obtain ⟨_, hrun⟩ := runMove_of_step h
  exact runMove_sameConstants (s := s.tick) hrun

end

/-- Settles O12: at reset the fragments are the slices of `Q`, and every move keeps them with the parameters. -/
theorem fragmentsLoadedOnce : Obligations.FragmentsLoadedOnce := by
  unfold Obligations.FragmentsLoadedOnce
  refine ⟨fun p _ => ?_, fun f _ => ?_, fun p hp => ?_, fun _ _ => step_sameConstants⟩
  · exact ⟨reset_frag0_toNat _, reset_frag1_toNat _, reset_frag2_toNat _, reset_frag3_toNat _, rfl⟩
  · obtain ⟨h0, h1, h2, h3⟩ := reset_fragments_eq_slices f
    exact ⟨by rw [h0, Nat.shiftRight_eq_div_pow], h1, h2, h3, reciprocal_eq_sum_fragments f⟩
  · simp only [State.resetWith, hp]
    decide

end Sys2Proof.Machine
end

section
/-! PROOF. RDYQ and WRNB (R139, R140): their one numbered step each, by what the DRE read or the `DATA` write can do. -/

namespace Sys2Proof.Machine

theorem transmitterOn_iff (e : Engine) :
    e.transmitterOn = true ↔ e.enableApplied = true ∧ e.syncEnable = false ∧ e.ctrlb.txen = true := by
  simp [Engine.transmitterOn, and_assoc]

section
variable {s : State}

/-! ## The `DATA` write outside an engine reset (R76) -/

theorem writeData_off (hr : s.eng.swrstPending = false) (ht : s.eng.transmitterOn = false) (b : Byte) :
    s.writeData b = s.ignoredAccess (.wr (.data b)) .txDisabled := by
  simpa [hr, ht] using writeData_cases s b

theorem writeData_full (hr : s.eng.swrstPending = false) (ht : s.eng.transmitterOn = true) (hh : s.eng.txHold ≠ none)
    (b : Byte) : s.writeData b = s.ignoredAccess (.wr (.data b)) .txOverrun := by
  simpa [hr, ht, hh] using writeData_cases s b

theorem writeData_room (hr : s.eng.swrstPending = false) (ht : s.eng.transmitterOn = true) (hh : s.eng.txHold = none)
    (b : Byte) :
    s.writeData b = { s with eng := { s.eng with txHold := some b }, log := s.log ++ [.wr (.data b)] } := by
  simpa [hr, ht, hh] using writeData_cases s b

/-! ## The numbered steps Q0 and N0 -/

theorem exec_rdyq_of_standsAt (h : s.standsAt .rdyq 0) :
    exec .rdyq s = .next ({ s.readDre.2 with qTmp := s.readDre.1 }.complete s.readDre.1) := by
  have ⟨_, _, hsp⟩ := h
  rw [exec_of_standsAt rfl h]
  simp only [sequenceOf, rdyqStep, hsp]

theorem exec_wrnb_of_standsAt (b : Byte) (h : s.standsAt .wrnb 0) :
    exec (.wrnb b) s = .next ((s.writeData s.bReg).complete false) := by
  have ⟨_, _, hsp⟩ := h
  rw [exec_of_standsAt rfl h]
  simp only [sequenceOf, wrnbStep, hsp]

/-- Q0 with the transmitter on answers whether `tx_hold` is empty. -/
theorem exec_rdyq_on (hr : s.eng.swrstPending = false) (ht : s.eng.transmitterOn = true) (h : s.standsAt .rdyq 0) :
    exec .rdyq s =
      .next { s with
        qTmp := s.eng.txHold.isNone, rsp := some s.eng.txHold.isNone, cur := none
        log := s.log ++ [.rd (.intflagDre s.eng.txHold.isNone), .rsp s.eng.txHold.isNone] } := by
  rw [exec_rdyq_of_standsAt h, readDre_on hr ht]
  simp [State.complete, State.emit]

end

/-- Settles O36: Q0's answer is the value the DRE read gives, with the transmitter on and with it off; the whole command
is its acceptance and Q0. -/
theorem rdyqAnswersDre : Obligations.RdyqAnswersDre := by
  unfold Obligations.RdyqAnswersDre
  refine fun s hr => ⟨fun h he hs ht => ?_, fun h hoff => ?_, fun ⟨hcur, hisr⟩ ⟨hon, hempty, _⟩ => ?_⟩
  · exact exec_rdyq_on hr ((transmitterOn_iff _).mpr ⟨he, hs, ht⟩) h
  · rw [← transmitterOn_iff, Bool.not_eq_true] at hoff
    rw [exec_rdyq_of_standsAt h, readDre_off hr hoff]
    simp [State.complete]
  · have accepted : (s.accept .rdyq .rdyq).standsAt .rdyq 0 := ⟨hisr, rfl, rfl⟩
    have answered := exec_rdyq_on (s := s.accept .rdyq .rdyq) hr hon accepted
    rw [execTimes_succ_of_next 1 (exec_of_idle rfl ⟨hcur, hisr⟩), execTimes_succ_of_next 0 answered]
    simp [execTimes, State.accept, State.loadOperands, hempty, hcur, encode, cmd40]

/-- Settles O37: N0 writes `DATA` and answers 0 after each of the write's three outcomes outside an engine reset. -/
theorem wrnbWrites : Obligations.WrnbWrites := by
  unfold Obligations.WrnbWrites
  intro s b hr h
  rw [exec_wrnb_of_standsAt b h]
  refine ⟨fun hoff => ?_, fun hon hfull => ?_, fun hon hempty => ?_⟩
  · rw [writeData_off hr hoff]
    simp [State.ignoredAccess, State.complete]
  · rw [writeData_full hr hon hfull]
    simp [State.ignoredAccess, State.complete]
  · rw [writeData_room hr hon hempty]
    simp [State.complete]

end Sys2Proof.Machine
end

section
/-! PROOF. RXISR (R142): its steps I0 to I2, one lemma each, and the whole run from dispatch. -/

namespace Sys2Proof.Machine

section
variable {s : State}

theorem exec_rxisr_of_dispatchReady (h : s.dispatchReady = true) : exec .rxisr s = .next s.takeInterrupt := by
  have ⟨_, _, hidle⟩ := (dispatchReady_iff s).mp h
  simp [exec, execRxisr, hidle, h]

/-- I0 with a byte waiting goes on to I1. -/
theorem exec_rxisr_i0_full (h : s.isrSp = some .i0) (hr : s.eng.swrstPending = false) (hx : s.eng.rxc = true) :
    exec .rxisr s =
      .next { s with isrF := true, isrSp := some .i1, log := s.log ++ [.rd (.intflagRxc true)] } := by
  simp [exec, execRxisr, rxisrI0, h, readRxc_quiet hr, hx, State.emit]

/-- I0 with none returns. -/
theorem exec_rxisr_i0_empty (h : s.isrSp = some .i0) (hr : s.eng.swrstPending = false) (hx : s.eng.rxc = false) :
    exec .rxisr s =
      .next { s with isrF := false, isrSp := none, log := s.log ++ [.rd (.intflagRxc false)] } := by
  simp [exec, execRxisr, rxisrI0, h, readRxc_quiet hr, hx, State.emit, State.returnFromInterrupt]

/-- I1 with a byte waiting takes it and clears `INTFLAG.RXC`. -/
theorem exec_rxisr_i1 (h : s.isrSp = some .i1) (hr : s.eng.swrstPending = false) (hx : s.eng.rxc = true) :
    exec .rxisr s =
      .next { s with
        eng := { s.eng with rxc := false }, isrByte := s.eng.rxData, isrSp := some .i2
        log := s.log ++ [.rd (.data s.eng.rxData)] } := by
  simp [exec, execRxisr, rxisrI1, h, readData_full hr hx, State.emit]

/-- I2 invokes the callback with the byte taken, and returns. -/
theorem exec_rxisr_i2 (h : s.isrSp = some .i2) :
    exec .rxisr s =
      .next { s with
        isrSp := none, hostState := invokeCallback s.params.callback s.isrByte s.hostState
        log := s.log ++ [.deliver s.isrByte] } := by
  simp [exec, execRxisr, rxisrI2, h, State.deliver, State.emit, State.returnFromInterrupt]

/-- The whole run, no other agent between its steps. -/
theorem execTimes_rxisr (h : s.dispatchReady = true) :
    execTimes 4 .rxisr s =
      .next { s with
        eng := { s.eng with rxc := false }, isrF := true, isrByte := s.eng.rxData
        hostState := invokeCallback s.params.callback s.eng.rxData s.hostState
        log := s.log ++
          [.cmd rxisrWord, .rd (.intflagRxc true), .rd (.data s.eng.rxData), .deliver s.eng.rxData] } := by
  obtain ⟨⟨hx, _, hr⟩, _, hidle⟩ := (dispatchReady_iff s).mp h
  rw [execTimes_succ_of_next 3 (exec_rxisr_of_dispatchReady h), execTimes_succ_of_next 2 (exec_rxisr_i0_full ?_ ?_ ?_),
    execTimes_succ_of_next 1 (exec_rxisr_i1 ?_ ?_ ?_), execTimes_succ_of_next 0 (exec_rxisr_i2 ?_),
    append_four_events, hidle]
  · rfl
  -- The states between stand at I2, I1 and I0, from the last back; no reset is pending, and the byte waits until I1.
  exacts [rfl, rfl, hr, hx, rfl, hr, hx]

end

/-- Settles O42: I0 to I2 one by one, and the run from dispatch follows them in turn. -/
theorem rxisrSequence : Obligations.RxisrSequence := by
  unfold Obligations.RxisrSequence
  exact fun s => ⟨exec_rxisr_i0_full, exec_rxisr_i0_empty, exec_rxisr_i1, fun h => ⟨_, exec_rxisr_i2 h⟩,
    fun h => ⟨_, execTimes_rxisr h⟩⟩

end Sys2Proof.Machine
end

section
/-! PROOF. The receive flag and the ISR agent (R143, R144): the mainline agent and the host touch neither, so what each
move does to them is said once, and the ISR's main path and the need for an arrival follow. -/

namespace Sys2Proof.Machine

/-! ## Two engine steps by cases (R73, R74) -/

theorem engSyncCtrlb_cases (s : State) :
    (s.eng.pendCtrlb = none ∧ s.engSyncCtrlb = s) ∨
    ∃ c, s.eng.pendCtrlb = some c ∧
      s.engSyncCtrlb = { s with eng := { s.eng with ctrlb := c, pendCtrlb := none, syncCtrlb := false } } := by
  cases hp : s.eng.pendCtrlb with
  | none => exact .inl ⟨rfl, by simp [State.engSyncCtrlb, hp]⟩
  | some c => exact .inr ⟨c, rfl, by simp [State.engSyncCtrlb, hp]⟩

theorem engSwrstDone_cases (s : State) :
    (s.eng.swrstPending = false ∧ s.engSwrstDone = s) ∨
    (s.eng.swrstPending = true ∧
      s.engSwrstDone =
        { s with eng := Engine.resetWith (Config.freeByte s.draws), draws := s.draws + 1 }) := by
  cases hr : s.eng.swrstPending with
  | false => exact .inl ⟨rfl, by simp [State.engSwrstDone, hr]⟩
  | true => exact .inr ⟨rfl, by simp [State.engSwrstDone, hr, State.drawByte]⟩

/-! ## What leaves the receive side alone -/

/-- `t` has the ISR's position and the receive flag of `s`. -/
def SameReceiver (s t : State) : Prop := t.isrSp = s.isrSp ∧ t.eng.rxc = s.eng.rxc

section
variable {s t : State}

theorem SameReceiver.refl (s : State) : SameReceiver s s := ⟨rfl, rfl⟩

theorem readEnable_sameReceiver (s : State) : SameReceiver s s.readEnable.2 := by
  rcases readEnable_cases s with ⟨_, h⟩ | ⟨_, _, h⟩ | ⟨_, _, h⟩
  all_goals rw [h]; exact ⟨rfl, rfl⟩

theorem readDre_sameReceiver (s : State) : SameReceiver s s.readDre.2 := by
  rcases readDre_cases s with ⟨_, h⟩ | ⟨_, _, h⟩ | ⟨_, _, h⟩
  all_goals rw [h]; exact ⟨rfl, rfl⟩

theorem writeEnable_sameReceiver (s : State) (v : Bool) : SameReceiver s (s.writeEnable v) := by
  rcases writeEnable_cases s v with ⟨_, h⟩ | ⟨_, _, h⟩ | ⟨_, _, h⟩
  all_goals rw [h]; exact ⟨rfl, rfl⟩

theorem writeSwrst_sameReceiver (s : State) : SameReceiver s (s.writeSwrst true) := by
  rcases writeSwrst_cases s with ⟨_, h⟩ | ⟨_, _, h⟩ | ⟨_, _, h⟩
  all_goals rw [h]; exact ⟨rfl, rfl⟩

/-- A whole write of CTRLA with `ENABLE = 0` and `SWRST = 0`, such as S13's. -/
theorem writeCtrla_plain_sameReceiver (s : State) (f : Ctrla) :
    SameReceiver s (s.writeCtrla { fields := f, enable := false, swrst := false }) := by
  rcases writeCtrla_plain_cases s f with ⟨_, h, _⟩ | ⟨_, _, h⟩
  all_goals rw [h]; exact ⟨rfl, rfl⟩

theorem writeBaud_sameReceiver (s : State) (d : BitVec 16) : SameReceiver s (s.writeBaud d) := by
  rcases writeBaud_cases s d with ⟨_, h, _⟩ | ⟨_, _, h⟩
  all_goals rw [h]; exact ⟨rfl, rfl⟩

theorem writeCtrlb_sameReceiver (s : State) (c : Ctrlb) : SameReceiver s (s.writeCtrlb c) := by
  rcases writeCtrlb_cases s c with ⟨_, h, _⟩ | ⟨_, _, _, h⟩
  all_goals rw [h]; exact ⟨rfl, rfl⟩

theorem writeIntenset_sameReceiver (s : State) (v : Bool) : SameReceiver s (s.writeIntenset v) := by
  rcases writeIntenset_cases s v with ⟨_, h⟩ | ⟨_, h⟩
  all_goals rw [h]; exact ⟨rfl, rfl⟩

theorem writeData_sameReceiver (s : State) (b : Byte) : SameReceiver s (s.writeData b) := by
  rcases writeData_cases s b with ⟨_, h, _⟩ | ⟨_, _, _, h⟩
  all_goals rw [h]; exact ⟨rfl, rfl⟩

theorem configStep_sameReceiver (h : configStep s = .next t) : SameReceiver s t := by
  rcases configStep_cases h with ⟨_, rfl⟩ | ⟨_, rfl⟩ | ⟨_, rfl⟩ | ⟨_, rfl⟩ | ⟨_, rfl⟩ | ⟨_, rfl⟩ | ⟨_, rfl⟩ | ⟨_, rfl⟩ |
    ⟨_, rfl⟩ | ⟨_, rfl⟩ | ⟨_, rfl⟩ | ⟨_, rfl⟩ | ⟨_, rfl⟩ | ⟨_, rfl⟩ | ⟨_, rfl⟩ | ⟨_, rfl⟩ | ⟨_, rfl⟩ | ⟨_, rfl⟩ |
    ⟨_, rfl⟩ | ⟨_, rfl⟩ | ⟨_, rfl⟩ | ⟨_, rfl⟩ | ⟨_, rfl⟩
  -- S0 to S22 in order: the steps with a transaction other than a `SYNCBUSY` read are those of the lemmas above.
  exacts [readEnable_sameReceiver { s with seq := .disabled }, ⟨rfl, rfl⟩, ⟨rfl, rfl⟩,
    writeEnable_sameReceiver s false, ⟨rfl, rfl⟩, writeSwrst_sameReceiver s, ⟨rfl, rfl⟩, ⟨rfl, rfl⟩, ⟨rfl, rfl⟩,
    ⟨rfl, rfl⟩, ⟨rfl, rfl⟩, ⟨rfl, rfl⟩, ⟨rfl, rfl⟩, writeCtrla_plain_sameReceiver s _, ⟨rfl, rfl⟩,
    writeBaud_sameReceiver s _, writeCtrlb_sameReceiver s _, ⟨rfl, rfl⟩, writeIntenset_sameReceiver s true, ⟨rfl, rfl⟩,
    writeEnable_sameReceiver { s with seq := .enabled } true, ⟨rfl, rfl⟩, ⟨rfl, rfl⟩]

theorem sequenceOf_sameReceiver {c : Cmd} (h : sequenceOf c s = .next t) : SameReceiver s t := by
  cases c with
  | claim =>
    rcases claimStep_cases h with ⟨_, rfl⟩ | ⟨_, rfl⟩ | ⟨_, rfl⟩
    all_goals exact ⟨rfl, rfl⟩
  | release =>
    rcases releaseStep_cases h with ⟨_, rfl⟩ | ⟨_, rfl⟩ | ⟨_, rfl⟩
    all_goals exact ⟨rfl, rfl⟩
  | config => exact configStep_sameReceiver h
  | rdyq =>
    obtain ⟨_, rfl⟩ := rdyqStep_cases h
    exact readDre_sameReceiver s
  | wrnb =>
    obtain ⟨_, rfl⟩ := wrnbStep_cases h
    exact writeData_sameReceiver s _
  | wrblk =>
    rcases wrblkStep_cases h with ⟨_, rfl⟩ | ⟨_, rfl⟩
    · exact readDre_sameReceiver s
    · exact writeData_sameReceiver s _

theorem engSyncEnable_sameReceiver (s : State) : SameReceiver s s.engSyncEnable := by
  rcases engSyncEnable_cases s with ⟨_, h⟩ | ⟨_, _, _, h⟩ | ⟨_, _, _, h⟩
  all_goals rw [h]; exact ⟨rfl, rfl⟩

theorem engSyncCtrlb_sameReceiver (s : State) : SameReceiver s s.engSyncCtrlb := by
  rcases engSyncCtrlb_cases s with ⟨_, h⟩ | ⟨_, _, h⟩
  all_goals rw [h]; exact ⟨rfl, rfl⟩

theorem engTx_sameReceiver (s : State) : SameReceiver s s.engTx := by
  rcases engTx_cases s with ⟨_, h⟩ | ⟨_, _, _, h⟩
  all_goals rw [h]; exact ⟨rfl, rfl⟩

/-! ## What a move does to the receive side -/

/-- Everything one move can do to the ISR's position and the receive flag: nothing, a step of RXISR, the completion of
an engine reset, or an arrival that finds the flag 0. -/
theorem runMove_receiver {m : Move} (h : runMove m s = .next t) :
    SameReceiver s t ∨ (m = .isr ∧ exec .rxisr s = .next t) ∨
    (m = .engSwrstDone ∧ s.eng.swrstPending = true ∧ t.isrSp = s.isrSp ∧ t.eng.rxc = false) ∨
    (m = .line ∧ s.eng.rxc = false ∧ t.isrSp = s.isrSp ∧ t.eng.rxc = true ∧
      ∃ b, t.log = s.log ++ [.wireRx b] ∧ t.eng.rxData = b) := by
  rcases runMove_cases h with rfl | ⟨_, _, w, rest, i, c, _, _, _, rfl⟩ | ⟨_, _, w, rest, e, _, _, rfl⟩ |
    ⟨_, _, c, _, hseq⟩ | hisr | ⟨_, rfl⟩ | ⟨_, rfl⟩ | ⟨hm, rfl⟩ | ⟨_, rfl⟩ | ⟨hm, rfl⟩
  · exact .inl (.refl _)
  · exact .inl ⟨accept_isrSp _ i c, congrArg Engine.rxc (accept_eng _ i c)⟩
  · exact .inl ⟨rfl, rfl⟩
  · exact .inl (sequenceOf_sameReceiver hseq)
  · exact .inr (.inl hisr)
  · exact .inl (engSyncEnable_sameReceiver s)
  · exact .inl (engSyncCtrlb_sameReceiver s)
  · rcases engSwrstDone_cases s with ⟨_, h⟩ | ⟨hr, h⟩
    · exact .inl (by rw [h]; exact .refl s)
    · exact .inr (.inr (.inl ⟨hm, hr, by rw [h], by rw [h]; rfl⟩))
  · exact .inl (engTx_sameReceiver s)
  · rcases lineStep_cases s with ⟨_, h⟩ | ⟨b, rest, _, _, ⟨_, h⟩ | ⟨hx, h⟩⟩
    · exact .inl (by rw [h]; exact .refl s)
    · exact .inl (by rw [h]; exact ⟨rfl, rfl⟩)
    · exact .inr (.inr (.inr ⟨hm, hx, by rw [h], by rw [h], b, by rw [h], by rw [h]⟩))

theorem step_receiver (h : step s = .next t) :
    SameReceiver s t ∨ (s.nextMove = .isr ∧ exec .rxisr s.tick = .next t) ∨
    (s.nextMove = .engSwrstDone ∧ s.eng.swrstPending = true ∧ t.isrSp = s.isrSp ∧ t.eng.rxc = false) ∨
    (s.nextMove = .line ∧ s.eng.rxc = false ∧ t.isrSp = s.isrSp ∧ t.eng.rxc = true ∧
      ∃ b, t.log = s.log ++ [.wireRx b] ∧ t.eng.rxData = b) :=
  runMove_receiver (runMove_of_step h).2

/-- An idle ISR agent starts only by a dispatch. -/
theorem rxisr_starts (h : exec .rxisr s = .next t) (hidle : s.isrSp = none) (hstart : t.isrSp ≠ none) :
    s.dispatchReady = true ∧ t = s.takeInterrupt := by
  rcases rxisr_cases h with ⟨_, hready, rfl⟩ | ⟨_, _, rfl⟩ | ⟨hat, _⟩ | ⟨hat, _⟩ | ⟨hat, _⟩
  · exact ⟨hready, rfl⟩
  · exact absurd hidle hstart
  all_goals rw [hidle] at hat; cases hat

theorem readRxc_eng (s : State) : s.readRxc.2.eng = s.eng := by
  rcases readRxc_cases s with ⟨_, h⟩ | ⟨_, h⟩
  all_goals rw [h]; rfl

theorem rxisrI0_eng (s : State) : (rxisrI0 s).eng = s.eng := by
  unfold rxisrI0
  simp only
  split <;> exact readRxc_eng s

/-- Of RXISR's steps only I1 touches the receive flag, and it never raises it. -/
theorem rxisr_rxc (h : exec .rxisr s = .next t) :
    t.eng.rxc = s.eng.rxc ∨ s.isrSp = some .i1 ∧ t.eng.rxc = false := by
  rcases rxisr_cases h with ⟨_, _, rfl⟩ | ⟨_, _, rfl⟩ | ⟨_, rfl⟩ | ⟨hat, rfl⟩ | ⟨_, rfl⟩
  · exact .inl rfl
  · exact .inl rfl
  · exact .inl (congrArg Engine.rxc (rxisrI0_eng s))
  · rcases readData_cases s with ⟨_, _, h⟩ | ⟨_, _, h⟩
    · exact .inl (by simp [rxisrI1, h])
    · exact .inr ⟨hat, by simp [rxisrI1, h]⟩
  · exact .inl rfl

/-! ## What a step does to the receive side, by what changes -/

/-- A step that starts the ISR is a dispatch, which finds a byte waiting (R164). -/
theorem step_starts_isr (h : step s = .next t) (hidle : s.isrSp = none) (hstart : t.isrSp ≠ none) :
    s.eng.rxc = true ∧ t.isrSp = some .i0 ∧ t.eng.rxc = true := by
  rcases step_receiver h with ⟨hsame, _⟩ | ⟨_, hisr⟩ | ⟨_, _, hsame, _⟩ | ⟨_, _, hsame, _⟩
  · exact absurd (hsame.trans hidle) hstart
  · obtain ⟨hready, rfl⟩ := rxisr_starts hisr hidle hstart
    obtain ⟨⟨hx, _⟩, _⟩ := (dispatchReady_iff _).mp hready
    exact ⟨hx, rfl, hx⟩
  · exact absurd (hsame.trans hidle) hstart
  · exact absurd (hsame.trans hidle) hstart

/-- A step that lowers the receive flag is I1 or the completion of an engine reset. -/
theorem step_lowers_rxc (h : step s = .next t) (hx : s.eng.rxc = true) (hx' : t.eng.rxc = false) :
    s.nextMove = .isr ∧ s.isrSp = some .i1 ∨ s.nextMove = .engSwrstDone ∧ s.eng.swrstPending = true := by
  rcases step_receiver h with ⟨_, hsame⟩ | ⟨hm, hisr⟩ | ⟨hm, hr, _⟩ | ⟨_, hx0, _⟩
  · simp [hsame, hx] at hx'
  · rcases rxisr_rxc hisr with hsame | ⟨hat, _⟩
    · simp [hsame, hx] at hx'
    · exact .inl ⟨hm, hat⟩
  · exact .inr ⟨hm, hr⟩
  · simp [hx] at hx0

/-- A step that raises the receive flag is an arrival (R144). -/
theorem step_raises_rxc (h : step s = .next t) (hx : s.eng.rxc = false) (hx' : t.eng.rxc = true) :
    s.nextMove = .line ∧ ∃ b, t.log = s.log ++ [.wireRx b] ∧ t.eng.rxData = b := by
  rcases step_receiver h with ⟨_, hsame⟩ | ⟨_, hisr⟩ | ⟨_, _, _, hx0⟩ | ⟨hm, _, _, _, harrival⟩
  · simp [hsame, hx] at hx'
  · rcases rxisr_rxc hisr with hsame | ⟨_, hx0⟩
    · simp [hsame, hx] at hx'
    · simp [hx0] at hx'
  · simp [hx0] at hx'
  · exact ⟨hm, harrival⟩

/-- Only the ISR agent moves the ISR. -/
theorem step_isrSp_eq (h : step s = .next t) (hm : s.nextMove ≠ .isr) : t.isrSp = s.isrSp := by
  rcases step_receiver h with ⟨hsame, _⟩ | ⟨hm', _⟩ | ⟨_, _, hsame, _⟩ | ⟨_, _, hsame, _⟩
  · exact hsame
  · exact absurd hm' hm
  · exact hsame
  · exact hsame

/-! ## What the invariant says of the ISR (R143) -/

theorem State.Inv.isr_at_i0 (hinv : s.Inv) (h : s.isrSp = some .i0) :
    s.eng.swrstPending = false ∧ s.eng.rxc = true := by
  simpa [h, State.isrPhase] using hinv.isr

theorem State.Inv.isr_at_i1 (hinv : s.Inv) (h : s.isrSp = some .i1) :
    s.eng.swrstPending = false ∧ s.eng.rxc = true ∧ s.isrF = true := by
  simpa [h, State.isrPhase] using hinv.isr

/-- No engine reset is pending while the ISR runs. -/
theorem State.Inv.isr_idle_of_swrstPending (hinv : s.Inv) (h : s.eng.swrstPending = true) : s.isrSp = none := by
  have hphase := hinv.isr
  cases hat : s.isrSp with
  | none => rfl
  | some i => cases i <;> simp [hat, State.isrPhase, h] at hphase

end

/-- Settles O44: the invariant gives I0 and I1 a waiting byte and no pending reset; between the steps only I1, and a
reset that finds the ISR idle, lower the flag. -/
theorem rxisrTakesMainPath : Obligations.RxisrTakesMainPath := by
  unfold Obligations.RxisrTakesMainPath
  refine fun s hinv => ⟨fun h => ?_, fun h => ?_, fun t hstep =>
    ⟨step_starts_isr hstep, fun hx hx' => ?_, fun h hm => ?_⟩⟩
  · obtain ⟨hr, hx⟩ := hinv.isr_at_i0 h
    exact ⟨_, exec_rxisr_i0_full h hr hx, rfl, rfl, rfl⟩
  · obtain ⟨hr, hx, _⟩ := hinv.isr_at_i1 h
    exact ⟨_, exec_rxisr_i1 h hr hx, rfl, rfl, rfl, rfl⟩
  · exact (step_lowers_rxc hstep hx hx').imp_right fun ⟨hm, hr⟩ => ⟨hm, hr, hinv.isr_idle_of_swrstPending hr⟩
  · obtain ⟨hr, hx⟩ := hinv.isr_at_i0 h
    refine ⟨(step_isrSp_eq hstep hm).trans h, ?_⟩
    by_contra hlow
    rcases step_lowers_rxc hstep hx (eq_false_of_ne_true hlow) with ⟨hm', _⟩ | ⟨_, hr'⟩
    · exact hm hm'
    · simp [hr] at hr'

/-- Settles O45: of all moves only an arrival raises the flag, and both the request and the dispatch need it; after I1
the flag is 0 or an engine reset is pending. -/
theorem noRequestWithoutArrival : Obligations.NoRequestWithoutArrival := by
  unfold Obligations.NoRequestWithoutArrival
  refine ⟨fun s t hstep hx => ⟨step_raises_rxc hstep hx, fun hidle => ?_⟩, fun s hx => by simp [Engine.irqReq, hx],
    fun s t hat hisr => ?_⟩
  · by_contra hstart
    obtain ⟨hx', _⟩ := step_starts_isr hstep hidle hstart
    simp [hx] at hx'
  · have ht : t = rxisrI1 s := by simpa [hat] using rxisr_cases hisr
    rcases readData_cases s with ⟨_, ⟨_, hr⟩ | ⟨_, _, hx⟩, h⟩ | ⟨_, _, h⟩
    · simp [ht, rxisrI1, h, Engine.irqReq, hr]
    · simp [ht, rxisrI1, h, Engine.irqReq, hx]
    · simp [ht, rxisrI1, h, Engine.irqReq]

end Sys2Proof.Machine
end

section
/-! PROOF. A ready answer makes the next WRNB safe (R147): the moves of the other agents leave the transmitter and the
mainline as they are, so the write still finds room when it comes. -/

namespace Sys2Proof

/-- The word of a WRNB decodes to it (R92). -/
theorem decode_encode_wrnb (b : Byte) : decode .mainline (encode (.wrnb b)) = .ok (.wrnb b) := by
  obtain ⟨hz, hop, hc, hdata⟩ := Laws.FormatFields.cmd40_fields (b.setWidth 32) false 0x5
  have hb : b.toNat < 2 ^ 8 := b.isLt
  have hlow : (b.setWidth 32).extractLsb' 0 8 = b := by
    apply BitVec.eq_of_toNat_eq
    simpa using hb
  have hhigh : (b.setWidth 32).extractLsb' 8 24 = 0#24 := by
    apply BitVec.eq_of_toNat_eq
    simp [BitVec.extractLsb'_toNat, Nat.shiftRight_eq_div_pow]
    omega
  simp only [decode, encode, decodeMainline, hz, hop, hc, hdata]
  simp [decodeByte, hlow, hhigh]

end Sys2Proof

namespace Sys2Proof.Machine

/-- `t` holds the two transmit faults that `s` holds. -/
def SameTxFaults (s t : State) : Prop :=
  (FaultName.txOverrun ∈ t.faults ↔ FaultName.txOverrun ∈ s.faults) ∧
    (FaultName.txDisabled ∈ t.faults ↔ FaultName.txDisabled ∈ s.faults)

/-- `t` has the transmit side, the mainline and the host of `s`: of the engine only the receive side may differ, and no
transmit fault is raised. -/
structure SameTransmitter (s t : State) : Prop where
  eng : ∃ rxc rxData, t.eng = { s.eng with rxc := rxc, rxData := rxData }
  cur : t.cur = s.cur
  sp : t.sp = s.sp
  bReg : t.bReg = s.bReg
  hostWords : t.hostWords = s.hostWords
  faults : SameTxFaults s t

section
variable {s t : State} {b : Byte}

theorem SameTxFaults.of_eq (h : t.faults = s.faults) : SameTxFaults s t := by
  simp [SameTxFaults, h]

/-- Another fault is no transmit fault. -/
theorem SameTxFaults.of_addFault {n : FaultName} (h : t.faults = addFault n s.faults) (hn : n ≠ .txOverrun)
    (hn' : n ≠ .txDisabled) : SameTxFaults s t := by
  simp [SameTxFaults, h, hn.symm, hn'.symm]

theorem SameTransmitter.refl (s : State) : SameTransmitter s s := ⟨⟨_, _, rfl⟩, rfl, rfl, rfl, rfl, .of_eq rfl⟩

theorem readRxc_sameTransmitter (s : State) : SameTransmitter s s.readRxc.2 := by
  rcases readRxc_cases s with ⟨_, h⟩ | ⟨_, h⟩
  · rw [h]
    exact ⟨⟨_, _, rfl⟩, rfl, rfl, rfl, rfl, .of_addFault rfl nofun nofun⟩
  · rw [h]
    exact ⟨⟨_, _, rfl⟩, rfl, rfl, rfl, rfl, .of_eq rfl⟩

theorem readData_sameTransmitter (s : State) : SameTransmitter s s.readData.2 := by
  rcases readData_cases s with ⟨_, ⟨rfl, _⟩ | ⟨rfl, _⟩, h⟩ | ⟨_, _, h⟩
  · rw [h]
    exact ⟨⟨_, _, rfl⟩, rfl, rfl, rfl, rfl, .of_addFault rfl nofun nofun⟩
  · rw [h]
    exact ⟨⟨_, _, rfl⟩, rfl, rfl, rfl, rfl, .of_addFault rfl nofun nofun⟩
  · rw [h]
    exact ⟨⟨_, _, rfl⟩, rfl, rfl, rfl, rfl, .of_eq rfl⟩

theorem rxisr_sameTransmitter (h : exec .rxisr s = .next t) : SameTransmitter s t := by
  rcases rxisr_cases h with ⟨_, _, rfl⟩ | ⟨_, _, rfl⟩ | ⟨_, rfl⟩ | ⟨_, rfl⟩ | ⟨_, rfl⟩
  · exact ⟨⟨_, _, rfl⟩, rfl, rfl, rfl, rfl, .of_eq rfl⟩
  · exact .refl _
  · obtain ⟨heng, hcur, hsp, hb, hw, hf⟩ := readRxc_sameTransmitter s
    unfold rxisrI0
    simp only
    split <;> exact ⟨heng, hcur, hsp, hb, hw, hf⟩
  · obtain ⟨heng, hcur, hsp, hb, hw, hf⟩ := readData_sameTransmitter s
    exact ⟨heng, hcur, hsp, hb, hw, hf⟩
  · exact ⟨⟨_, _, rfl⟩, rfl, rfl, rfl, rfl, .of_eq rfl⟩

theorem lineStep_sameTransmitter (s : State) : SameTransmitter s s.lineStep := by
  rcases lineStep_cases s with ⟨_, h⟩ | ⟨_, _, _, _, ⟨_, h⟩ | ⟨_, h⟩⟩
  · rw [h]
    exact .refl s
  · rw [h]
    exact ⟨⟨_, _, rfl⟩, rfl, rfl, rfl, rfl, .of_addFault rfl nofun nofun⟩
  · rw [h]
    exact ⟨⟨_, _, rfl⟩, rfl, rfl, rfl, rfl, .of_eq rfl⟩

/-- What awaits the write goes on awaiting it. -/
theorem SameTransmitter.awaitingWrite (h : SameTransmitter s t) (hw : s.AwaitingWrite b) : t.AwaitingWrite b := by
  obtain ⟨⟨_, _, heng⟩, hcur, hsp, hb, hwords, _⟩ := h
  unfold State.AwaitingWrite State.TxReady State.Quiet
  rw [heng, hcur, hsp, hb, hwords]
  exact hw

/-- With the transmitter ready no engine step has anything to do. -/
theorem engine_idle_of_txReady (h : s.TxReady) :
    s.engSyncEnable = s ∧ s.engSyncCtrlb = s ∧ s.engSwrstDone = s ∧ s.engTx = s := by
  obtain ⟨_, hempty, hpend, hctrlb, hr⟩ := h
  refine ⟨?_, ?_, ?_, ?_⟩
  · simpa [hpend] using engSyncEnable_cases s
  · simpa [hctrlb] using engSyncCtrlb_cases s
  · simpa [hr] using engSwrstDone_cases s
  · simp [State.engTx, hempty]

/-- The word the port takes while a WRNB is awaited is that WRNB. -/
theorem hostWord_of_awaitingWrite {w : Word40} {rest : List Word40} (hw : s.AwaitingWrite b) (hidle : s.idle)
    (hwords : s.hostWords = w :: rest) : decode .mainline w = .ok (.wrnb b) := by
  obtain ⟨_, ⟨_, hhead⟩ | ⟨hcur, _⟩⟩ := hw
  · obtain rfl : w = encode (.wrnb b) := by simpa [hwords] using hhead
    exact decode_encode_wrnb b
  · simp [hidle.1] at hcur

/-- N0, the awaited write, is accepted. -/
theorem sequenceOf_awaitingWrite {c : Cmd} (hw : s.AwaitingWrite b) (hcur : s.cur = some c)
    (h : sequenceOf c s = .next t) :
    t.cur = none ∧ t.eng.txHold = some b ∧ t.faults = s.faults ∧ t.log = s.log ++ [.wr (.data b), .rsp false] := by
  obtain ⟨⟨hon, hempty, _, _, hr⟩, ⟨hnone, _⟩ | ⟨hwrnb, _, hb⟩⟩ := hw
  · simp [hnone] at hcur
  · obtain rfl : Cmd.wrnb = c := by simpa [hwrnb] using hcur
    obtain ⟨_, rfl⟩ := wrnbStep_cases h
    rw [writeData_room hr hon hempty, hb]
    exact ⟨rfl, rfl, rfl, by simp⟩

/-- One move while a WRNB is awaited: the waiting goes on with no transmit fault raised, or it is the accepted write. -/
theorem runMove_awaitingWrite {m : Move} (hw : s.AwaitingWrite b) (h : runMove m s = .next t) :
    (t.AwaitingWrite b ∧ SameTxFaults s t) ∨
      t.cur = none ∧ t.eng.txHold = some b ∧ t.faults = s.faults ∧ t.log = s.log ++ [.wr (.data b), .rsp false] := by
  obtain ⟨hsync, hctrlb, hreset, hdrain⟩ := engine_idle_of_txReady hw.1
  have stays (h : SameTransmitter s t) : t.AwaitingWrite b ∧ SameTxFaults s t := ⟨h.awaitingWrite hw, h.faults⟩
  rcases runMove_cases h with rfl | ⟨_, hidle, w, rest, i, c, hwords, hdec, hc, rfl⟩ |
    ⟨_, hidle, w, rest, e, hwords, hdec, rfl⟩ | ⟨_, _, c, hcur, hseq⟩ | ⟨_, hisr⟩ | ⟨_, rfl⟩ | ⟨_, rfl⟩ | ⟨_, rfl⟩ |
    ⟨_, rfl⟩ | ⟨_, rfl⟩
  · exact .inl (stays (.refl _))
  · obtain rfl : Instr.wrnb b = i := by simpa [hostWord_of_awaitingWrite hw hidle hwords] using hdec
    obtain rfl : Cmd.wrnb = c := by simpa [cmdOf] using hc
    exact .inl ⟨⟨hw.1, .inr ⟨rfl, rfl, rfl⟩⟩, .of_eq rfl⟩
  · simp [hostWord_of_awaitingWrite hw hidle hwords] at hdec
  · exact .inr (sequenceOf_awaitingWrite hw hcur hseq)
  · exact .inl (stays (rxisr_sameTransmitter hisr))
  · exact .inl (stays (by rw [hsync]; exact .refl s))
  · exact .inl (stays (by rw [hctrlb]; exact .refl s))
  · exact .inl (stays (by rw [hreset]; exact .refl s))
  · exact .inl (stays (by rw [hdrain]; exact .refl s))
  · exact .inl (stays (lineStep_sameTransmitter s))

end

/-- Settles O40: an answer of 1 is an empty `tx_hold`, and from there each move of another agent leaves the transmitter
ready until WRNB's own step writes. -/
theorem writeAfterReadyIsSafe : Obligations.WriteAfterReadyIsSafe := by
  unfold Obligations.WriteAfterReadyIsSafe
  refine ⟨fun s t hquiet hs he ht hat h hready => ?_, fun s t b _ hw hstep => ?_⟩
  · have ⟨_, _, hr⟩ := hquiet
    have hon := (transmitterOn_iff s.eng).mpr ⟨he, hs, ht⟩
    rw [exec_rdyq_on hr hon hat] at h
    cases h
    exact ⟨rfl, hon, by simpa using hready, hquiet⟩
  · have hmove := (runMove_of_step hstep).2
    exact runMove_awaitingWrite (s := s.tick) hw hmove

end Sys2Proof.Machine
end

section
/-! PROOF. The synchronised writes (R68–R70, R72), the completion of each synchronisation (R73), the traffic on the line (R78,
R79), the dispatch (R164) and the two resets (R74, R173). -/

namespace Sys2Proof.Machine

section
variable {s : State}

/-! ## The synchronised writes outside an engine reset -/

theorem writeEnable_legal (hr : s.eng.swrstPending = false) (hs : s.eng.syncEnable = false) (v : Bool) :
    s.writeEnable v =
      { s with
        eng := { s.eng with pendEnable := some v, syncEnable := true }, log := s.log ++ [.wf (.ctrlaEnable v)] } := by
  simpa [hr, hs] using writeEnable_cases s v

theorem writeEnable_busy (hr : s.eng.swrstPending = false) (hs : s.eng.syncEnable = true) (v : Bool) :
    s.writeEnable v = s.ignoredAccess (.wf (.ctrlaEnable v)) .syncViolation := by
  simpa [hr, hs] using writeEnable_cases s v

theorem writeSwrst_legal (hr : s.eng.swrstPending = false) (hs : s.eng.syncEnable = false) :
    s.writeSwrst true =
      { s with eng := { s.eng with swrstPending := true }, log := s.log ++ [.wf (.ctrlaSwrst true)] } := by
  simpa [hr, hs] using writeSwrst_cases s

theorem writeSwrst_busy (hr : s.eng.swrstPending = false) (hs : s.eng.syncEnable = true) :
    s.writeSwrst true = s.ignoredAccess (.wf (.ctrlaSwrst true)) .syncViolation := by
  simpa [hr, hs] using writeSwrst_cases s

theorem writeCtrlb_legal (hr : s.eng.swrstPending = false) (hp : s.eng.writeProtected = false)
    (hs : s.eng.syncCtrlb = false) (c : Ctrlb) :
    s.writeCtrlb c =
      { s with eng := { s.eng with pendCtrlb := some c, syncCtrlb := true }, log := s.log ++ [.wr (.ctrlb c)] } := by
  simpa [hr, hp, hs] using writeCtrlb_cases s c

theorem writeCtrlb_busy (hr : s.eng.swrstPending = false) (hp : s.eng.writeProtected = false)
    (hs : s.eng.syncCtrlb = true) (c : Ctrlb) :
    s.writeCtrlb c = s.ignoredAccess (.wr (.ctrlb c)) .syncViolation := by
  simpa [hr, hp, hs] using writeCtrlb_cases s c

theorem writeCtrla_plain_legal (hr : s.eng.swrstPending = false) (hp : s.eng.writeProtected = false) (f : Ctrla) :
    s.writeCtrla { fields := f, enable := false, swrst := false } =
      { s with
        eng := { s.eng with ctrla := f }
        log := s.log ++ [.wr (.ctrla { fields := f, enable := false, swrst := false })] } := by
  simpa [hr, hp] using writeCtrla_plain_cases s f

theorem writeBaud_legal (hr : s.eng.swrstPending = false) (hp : s.eng.writeProtected = false) (d : BitVec 16) :
    s.writeBaud d = { s with eng := { s.eng with baud := d }, log := s.log ++ [.wr (.baud d)] } := by
  simpa [hr, hp] using writeBaud_cases s d

/-- A whole write of CTRLA that the checks of R80 and R81 let pass is its entry and the response of R70. -/
theorem writeCtrla_unprotected (hr : s.eng.swrstPending = false) (hp : s.eng.writeProtected = false) (w : CtrlaWrite) :
    s.writeCtrla w = (s.emit (.wr (.ctrla w))).applyCtrla w :=
  write_legal hr (.inr hp)

end

/-- Settles O51: each synchronised write is legal or busy by its own busy bit; of a whole write of CTRLA each bit that
acts starts its synchronisation, and two that act conflict. -/
theorem synchronisedWrites : Obligations.SynchronisedWrites := by
  unfold Obligations.SynchronisedWrites
  refine fun s v c f hr => ⟨fun hs => writeEnable_legal hr hs v, fun hs => writeEnable_busy hr hs v,
    writeSwrst_legal hr, writeSwrst_busy hr, write_legal hr (.inl rfl), fun he hp => ?_⟩
  have unprotected : s.eng.writeProtected = false := (writeProtected_iff _).mpr ⟨he, hp⟩
  refine ⟨fun hs => writeCtrlb_legal hr unprotected hs c, fun hs => writeCtrlb_busy hr unprotected hs c,
    writeCtrla_plain_legal hr unprotected f, fun hs => ⟨?_, ?_⟩, ?_⟩
  · rw [writeCtrla_unprotected hr unprotected]
    simp [State.applyCtrla, State.ctrlaConflict, State.startEnableSync, State.emit, he, hs, hr]
  · rw [writeCtrla_unprotected hr unprotected]
    simp [State.applyCtrla, State.ctrlaConflict, State.startSwrst, State.emit, he, hs, hr]
  · rw [writeCtrla_unprotected hr unprotected]
    simp [State.applyCtrla, State.ctrlaConflict, State.emit, State.raiseFault, State.ignoredAccess, he]

/-! ## The engine's and the line's own steps -/

section
variable {s : State}

theorem engSyncEnable_none (hp : s.eng.pendEnable = none) : s.engSyncEnable = s := by
  simpa [hp] using engSyncEnable_cases s

theorem engSyncCtrlb_none (hp : s.eng.pendCtrlb = none) : s.engSyncCtrlb = s := by
  simpa [hp] using engSyncCtrlb_cases s

theorem engSyncCtrlb_some {c : Ctrlb} (hp : s.eng.pendCtrlb = some c) :
    s.engSyncCtrlb = { s with eng := { s.eng with ctrlb := c, pendCtrlb := none, syncCtrlb := false } } := by
  simpa [hp] using engSyncCtrlb_cases s

/-- An enable, or a disable that finds the holding register empty. -/
theorem engSyncEnable_plain {v : Bool} (hp : s.eng.pendEnable = some v) (hv : v = true ∨ s.eng.txHold = none) :
    s.engSyncEnable =
      { s with eng := { s.eng with enableApplied := v, pendEnable := none, syncEnable := false } } := by
  rcases engSyncEnable_cases s with ⟨h, _⟩ | ⟨u, h, _, heq⟩ | ⟨b, h, hb, _⟩
  · simp [hp] at h
  · obtain rfl : v = u := by simpa [hp] using h
    exact heq
  · obtain rfl : v = false := by simpa [hp] using h
    simp [hb] at hv

/-- A disable that finds a byte discards it. -/
theorem engSyncEnable_discard {b : Byte} (hp : s.eng.pendEnable = some false) (hb : s.eng.txHold = some b) :
    s.engSyncEnable =
      { s with
        eng := { s.eng with enableApplied := false, pendEnable := none, syncEnable := false, txHold := none }
        draws := s.draws + 1
        log := s.log ++ if Config.freeBit s.draws = true then [.wireTx b] else [] } := by
  simpa [hp, hb] using engSyncEnable_cases s

theorem engSwrstDone_pending (hr : s.eng.swrstPending = true) :
    s.engSwrstDone = { s with eng := Engine.resetWith (Config.freeByte s.draws), draws := s.draws + 1 } := by
  simpa [hr] using engSwrstDone_cases s

theorem engSwrstDone_idle (hr : s.eng.swrstPending = false) : s.engSwrstDone = s := by
  simpa [hr] using engSwrstDone_cases s

theorem txReady_iff (e : Engine) :
    e.txReady = true ↔ e.enableApplied = true ∧ e.ctrlb.txen = true ∧ e.txHold.isSome = true := by
  simp [Engine.txReady, and_assoc]

theorem rxReady_iff (e : Engine) :
    e.rxReady = true ↔ e.enableApplied = true ∧ e.ctrlb.rxen = true ∧ e.swrstPending = false := by
  simp [Engine.rxReady, and_assoc]

theorem engTx_ready {b : Byte} (ht : s.eng.txReady = true) (hb : s.eng.txHold = some b) :
    s.engTx = { s with eng := { s.eng with txHold := none }, log := s.log ++ [.wireTx b] } := by
  simpa [ht, hb] using engTx_cases s

theorem engTx_idle (ht : s.eng.txReady = false) : s.engTx = s := by
  simpa [ht] using engTx_cases s

/-- An arrival with no byte unread is stored (R79). -/
theorem lineStep_store {b : Byte} {bs : List Byte} (hl : s.lineBytes = b :: bs) (hr : s.eng.rxReady = true)
    (hx : s.eng.rxc = false) :
    s.lineStep =
      { s with eng := { s.eng with rxData := b, rxc := true }, lineBytes := bs, log := s.log ++ [.wireRx b] } := by
  rcases lineStep_cases s with ⟨h | h, _⟩ | ⟨d, ds, h, _, ⟨h', _⟩ | ⟨_, heq⟩⟩
  · simp [hl] at h
  · simp [hr] at h
  · simp [hx] at h'
  · obtain ⟨rfl, rfl⟩ : b = d ∧ bs = ds := by simpa [hl] using h
    exact heq

/-- An arrival with a byte unread is lost (R79, R156). -/
theorem lineStep_overflow {b : Byte} {bs : List Byte} (hl : s.lineBytes = b :: bs) (hr : s.eng.rxReady = true)
    (hx : s.eng.rxc = true) :
    s.lineStep =
      { s with
        faults := addFault .rxOverflow s.faults, lineBytes := bs, log := s.log ++ [.wireRx b, .fault .rxOverflow] } := by
  rcases lineStep_cases s with ⟨h | h, _⟩ | ⟨d, ds, h, _, ⟨_, heq⟩ | ⟨h', _⟩⟩
  · simp [hl] at h
  · simp [hr] at h
  · obtain ⟨rfl, rfl⟩ : b = d ∧ bs = ds := by simpa [hl] using h
    exact heq
  · simp [hx] at h'

theorem lineStep_idle (hr : s.eng.rxReady = false) : s.lineStep = s := by
  simpa [hr] using lineStep_cases s

end

/-- Settles O52: each completion step by what is pending, and a disable by whether `tx_hold` holds a byte. -/
theorem synchronisationCompletes : Obligations.SynchronisationCompletes := by
  unfold Obligations.SynchronisationCompletes
  exact fun s v c b => ⟨fun hp hv => congrArg _ (engSyncEnable_plain hp hv),
    fun hp hb => congrArg _ (engSyncEnable_discard hp hb), fun hp => congrArg _ (engSyncCtrlb_some hp),
    fun hp => congrArg _ (engSyncEnable_none hp), fun hp => congrArg _ (engSyncCtrlb_none hp)⟩

/-- Settles O55: the guards of the drain and of the arrival are the stated bits, and the unread byte decides whether an
arrival is stored. -/
theorem lineTraffic : Obligations.LineTraffic := by
  unfold Obligations.LineTraffic
  refine ⟨fun s b => ⟨fun he ht hb => congrArg _ (engTx_ready ?_ hb), fun hoff => congrArg _ (engTx_idle ?_)⟩,
    fun s b bs hl => ⟨fun he hx hr hflag => congrArg _ (lineStep_store hl ?_ hflag),
      fun he hx hr hflag => congrArg _ (lineStep_overflow hl ?_ hflag), fun hoff => congrArg _ (lineStep_idle ?_)⟩⟩
  · exact (txReady_iff _).mpr ⟨he, ht, by simp [hb]⟩
  · rwa [← txReady_iff, Bool.not_eq_true] at hoff
  · exact (rxReady_iff _).mpr ⟨he, hx, hr⟩
  · exact (rxReady_iff _).mpr ⟨he, hx, hr⟩
  · rwa [← rxReady_iff, Bool.not_eq_true] at hoff

/-! ## The dispatch -/

theorem exec_rxisr_of_not_dispatchReady {s : State} (hidle : s.isrSp = none) (h : s.dispatchReady = false) :
    exec .rxisr s = .next s := by
  simp [exec, execRxisr, hidle, h]

/-- Settles O43: the guard of the dispatch is the four stated bits. -/
theorem interruptEntry : Obligations.InterruptEntry := by
  unfold Obligations.InterruptEntry
  refine fun s hidle => ⟨fun hx hi hr hl => exec_rxisr_of_dispatchReady ?_, fun hoff =>
    exec_rxisr_of_not_dispatchReady hidle ?_⟩
  · exact (dispatchReady_iff s).mpr ⟨⟨hx, hi, hr⟩, hl, hidle⟩
  · rw [← Bool.not_eq_true, dispatchReady_iff]
    exact fun ⟨⟨hx, hi, hr⟩, hl, _⟩ => hoff ⟨hx, hi, hr, hl⟩

end Sys2Proof.Machine
end

section
/-! PROOF. CONFIG's steps that read and write the engine (R103–R108, R114–R120): each by the one transaction it makes. -/

namespace Sys2Proof.Machine

section
variable {s : State}

/-- An enable read during its synchronisation is a draw (R67). -/
theorem readEnable_busy (hr : s.eng.swrstPending = false) (hs : s.eng.syncEnable = true) :
    s.readEnable =
      (Config.freeBit s.draws,
        { s with draws := s.draws + 1, log := s.log ++ [.rd (.ctrlaEnable (Config.freeBit s.draws))] }) := by
  simpa [hr, hs] using readEnable_cases s

/-! ## The steps with a transaction other than a `SYNCBUSY` read, where the access is legal -/

theorem configS0_quiet (hr : s.eng.swrstPending = false) (hs : s.eng.syncEnable = false) :
    configS0 s =
      { s with
        seq := .disabled, eTmp := s.eng.enableApplied, sp := 1
        log := s.log ++ [.rd (.ctrlaEnable s.eng.enableApplied)] } := by
  simp [configS0, readEnable_quiet (s := { s with seq := .disabled }) hr hs, State.emit, State.gotoStep]

theorem configS0_busy (hr : s.eng.swrstPending = false) (hs : s.eng.syncEnable = true) :
    configS0 s =
      { s with
        seq := .disabled, eTmp := Config.freeBit s.draws, sp := 1, draws := s.draws + 1
        log := s.log ++ [.rd (.ctrlaEnable (Config.freeBit s.draws))] } := by
  simp [configS0, readEnable_busy (s := { s with seq := .disabled }) hr hs, State.gotoStep]

theorem configS3_legal (hr : s.eng.swrstPending = false) (hs : s.eng.syncEnable = false) :
    configS3 s =
      { s with
        eng := { s.eng with pendEnable := some false, syncEnable := true }, sp := 4
        log := s.log ++ [.wf (.ctrlaEnable false)] } := by
  simp [configS3, writeEnable_legal hr hs, State.gotoStep]

theorem configS5_legal (hr : s.eng.swrstPending = false) (hs : s.eng.syncEnable = false) :
    configS5 s =
      { s with eng := { s.eng with swrstPending := true }, sp := 6, log := s.log ++ [.wf (.ctrlaSwrst true)] } := by
  simp [configS5, writeSwrst_legal hr hs, State.gotoStep]

theorem configS13_legal (hr : s.eng.swrstPending = false) (hp : s.eng.writeProtected = false) :
    configS13 s =
      { s with
        eng := { s.eng with ctrla := (modeFraming s.params).fields }, sp := 14
        log := s.log ++ [.wr (.ctrla (modeFraming s.params))] } := by
  simp [configS13, modeFraming, writeCtrla_plain_legal hr hp, State.gotoStep]

theorem configS15_legal (hr : s.eng.swrstPending = false) (hp : s.eng.writeProtected = false) :
    configS15 s =
      { s with eng := { s.eng with baud := s.dp.dReg }, sp := 16, log := s.log ++ [.wr (.baud s.dp.dReg)] } := by
  simp [configS15, writeBaud_legal hr hp, State.gotoStep]

theorem configS16_legal (hr : s.eng.swrstPending = false) (hp : s.eng.writeProtected = false)
    (hs : s.eng.syncCtrlb = false) :
    configS16 s =
      { s with
        eng := { s.eng with pendCtrlb := some frameControl, syncCtrlb := true }, sp := 17
        log := s.log ++ [.wr (.ctrlb frameControl)] } := by
  simp [configS16, writeCtrlb_legal hr hp hs, State.gotoStep]

theorem configS18_legal (hr : s.eng.swrstPending = false) :
    configS18 s =
      { s with eng := { s.eng with intenRxc := true }, sp := 19, log := s.log ++ [.wr (.intenset true)] } := by
  simp [configS18, writeIntenset_legal hr, State.gotoStep]

theorem configS20_legal (hr : s.eng.swrstPending = false) (hs : s.eng.syncEnable = false) :
    configS20 s =
      { s with
        seq := .enabled, eng := { s.eng with pendEnable := some true, syncEnable := true }, sp := 21
        log := s.log ++ [.wf (.ctrlaEnable true)] } := by
  simp [configS20, writeEnable_legal (s := { s with seq := .enabled }) hr hs, State.gotoStep]

/-- CONFIG standing at step `n` takes the step `f` that its sequence has there. -/
theorem exec_config_next {n : Nat} {c : Bool} {r : BitVec 32} {f : State → State} {u : State} (h : s.standsAt .config n)
    (hstep : configStep { s with sp := n } = .next (f { s with sp := n })) (hf : f s = u) :
    exec (.config c r) s = .next u := by
  have ⟨_, _, hsp⟩ := h
  subst hsp
  exact (exec_of_standsAt rfl h).trans (hstep.trans (congrArg _ hf))

end

/-- Settles O21: at a known pointer CONFIG's sequence is its one numbered step, whose transaction is legal as supposed. -/
theorem configDisablesAndResets : Obligations.ConfigDisablesAndResets := by
  unfold Obligations.ConfigDisablesAndResets
  refine fun s c r => ⟨fun h hr hs => ?_, fun h hr hs => ?_, fun h => exec_config_of_standsAt h, fun h => ?_, fun h => ?_,
    fun h => ?_, fun h hr hs => ?_, fun h hr hs => ?_⟩
  · exact exec_config_next (f := configS0) h rfl (configS0_quiet hr hs)
  · exact exec_config_next (f := configS0) h rfl (configS0_busy hr hs)
  · exact exec_config_next (f := configS2) h rfl (pollNotBusy_eq s 2 3)
  · exact exec_config_next (f := configS4) h rfl (pollNotBusy_eq { s with seq := .resetting } 4 5)
  · exact exec_config_next (f := configS6) h rfl (pollNotBusy_eq s 6 7)
  · exact exec_config_next (f := configS3) h rfl (configS3_legal hr hs)
  · exact exec_config_next (f := configS5) h rfl (configS5_legal hr hs)

/-- Settles O23: a disabled engine with nothing pending takes each of the four writes, and S14 makes none. -/
theorem configProgramsEngine : Obligations.ConfigProgramsEngine := by
  unfold Obligations.ConfigProgramsEngine
  intro s c r ⟨⟨hp, _, hr⟩, he⟩ hs
  have unprotected : s.eng.writeProtected = false := (writeProtected_iff _).mpr ⟨he, hp⟩
  refine ⟨fun h => ?_, fun h => ⟨exec_config_of_standsAt h, dividedDatapath_dReg⟩, fun h => ?_, fun h => ?_, fun h => ?_⟩
  · exact exec_config_next (f := configS13) h rfl (configS13_legal hr unprotected)
  · exact exec_config_next (f := configS15) h rfl (configS15_legal hr unprotected)
  · exact exec_config_next (f := configS16) h rfl (configS16_legal hr unprotected hs)
  · exact exec_config_next (f := configS18) h rfl (configS18_legal hr)

/-- Settles O24: S17 and S21 read their busy bit, S20's write starts the enable, and S22 answers. -/
theorem configEnablesAndAnswers : Obligations.ConfigEnablesAndAnswers := by
  unfold Obligations.ConfigEnablesAndAnswers
  refine fun s c r => ⟨exec_config_of_standsAt, exec_config_of_standsAt, fun h => ?_, fun h hr hs => ?_⟩
  · have ⟨_, _, hsp⟩ := h
    rw [exec_of_standsAt rfl h]
    simp only [sequenceOf, configStep, hsp, configS22, State.complete]
  · exact exec_config_next (f := configS20) h rfl (configS20_legal hr hs)

/-- Settles O14: the completion of a reset writes the defaults; after a reset of the UCB alone S0 still reads the engine's
own enable, so S1 goes to the disable. -/
theorem twoResets : Obligations.TwoResets := by
  unfold Obligations.TwoResets
  refine ⟨fun s => ⟨fun hr => congrArg _ (engSwrstDone_pending hr), fun hr => congrArg _ (engSwrstDone_idle hr)⟩,
    fun s => ⟨rfl, rfl, rfl, rfl, rfl, rfl, rfl, rfl, rfl, rfl, fun ⟨_, _, hr⟩ hs he c r => ?_⟩⟩
  have accepted := exec_of_idle (i := .config c r) (c := .config) rfl (s := s.resetUcbOnly) ⟨rfl, rfl⟩
  have atS0 : (s.resetUcbOnly.accept (.config c r) .config).standsAt .config 0 := ⟨rfl, rfl, rfl⟩
  obtain ⟨readsEnable, _⟩ := configDisablesAndResets (s.resetUcbOnly.accept (.config c r) .config) c r
  rw [execTimes_succ_of_next 2 accepted, execTimes_succ_of_next 1 (readsEnable atS0 hr hs),
    execTimes_succ_of_next 0 (exec_config_of_standsAt (n := 1) ⟨rfl, rfl, rfl⟩)]
  refine ⟨_, rfl, ⟨rfl, rfl, ?_⟩, rfl⟩
  exact if_pos he

end Sys2Proof.Machine
end

section
/-! PROOF. The invariant (R24, R28, R44, R103–R121, R143, R157–R160): it holds at reset, and every move keeps it. First what
the phase of a command says of the engine, then the moves, each by the few parts of the invariant it touches. -/

namespace Sys2Proof.Machine

/-! ## At reset -/

/-- Settles O57: nothing is pending, no command and no ISR runs, and the fault set is empty. -/
theorem invariantHoldsAtReset : Obligations.InvariantHoldsAtReset := by
  unfold Obligations.InvariantHoldsAtReset
  intro p ws bs ms
  exact
    { pins := nofun
      sync := ⟨rfl, rfl⟩
      command := ⟨rfl, rfl, rfl⟩
      isr := trivial
      fragments := ⟨rfl, rfl, rfl, rfl⟩
      noInternalFault := ⟨nofun, nofun, nofun, nofun⟩
      faultsCanonical := ⟨fun _ => false, rfl⟩ }

section
variable {s t : State}

/-! ## What the phase says of the engine -/

/-- The conditions the engine goes through in a CONFIG, each with the steps that find it so. -/
inductive State.ConfigEngine (s : State) (n : Nat) : Prop where
  | before (hn : n ≤ 3) (quiet : s.Quiet)
  | disabling (hn : n = 4) (noReset : s.eng.swrstPending = false) (noCtrlb : s.eng.pendCtrlb = none)
      (enable : s.eng.pendEnable = some false ∨ s.NotEnabled)
  | off (hn : n = 5) (off : s.Off)
  | resetting (hn : n = 6) (pending : s.eng.swrstPending = true) (notEnabled : s.NotEnabled)
      (noCtrlb : s.eng.pendCtrlb = none)
  | fresh (hlo : 6 ≤ n) (hhi : n ≤ 16) (ctrla : Ctrla) (baud : BitVec 16) (fresh : s.FreshEngine ctrla baud)
  | programmed (hlo : 17 ≤ n) (hhi : n ≤ 20) (programmed : s.Programmed) (notEnabled : s.NotEnabled)
      (ctrlb : n = 17 ∧ s.eng.pendCtrlb = some frameControl ∨ s.Controlled)
  | enabling (hn : n = 21 ∨ n = 22) (programmed : s.Programmed) (controlled : s.Controlled)
      (enable : n = 21 ∧ s.eng.pendEnable = some true ∨ s.eng.pendEnable = none ∧ s.eng.enableApplied = true)

theorem configPhase_engine {n : Nat} (h : s.configPhase n) : s.ConfigEngine n := by
  unfold State.configPhase at h
  split at h
  · exact .before (by decide) h
  iterate 3 exact .before (by decide) h.1
  · obtain ⟨_, hr, hc, he⟩ := h
    exact .disabling rfl hr hc he
  · exact .off rfl h.1
  · obtain ⟨hne, hc, _, hr | hfresh⟩ := h
    · exact .resetting rfl hr hne hc
    · exact .fresh (by decide) (by decide) _ _ hfresh
  -- S7 to S16: the engine is as its reset left it, but for the writes of S13 and S15.
  iterate 10 exact .fresh (by decide) (by decide) _ _ h.1
  · obtain ⟨hp, _, _, hne, hc⟩ := h
    exact .programmed (by decide) (by decide) hp hne (hc.imp_left fun hc => ⟨rfl, hc⟩)
  · obtain ⟨hp, _, _, hne, hc⟩ := h
    exact .programmed (by decide) (by decide) hp hne (.inr hc)
  iterate 2
    obtain ⟨hp, _, _, hne, hc, _⟩ := h
    exact .programmed (by decide) (by decide) hp hne (.inr hc)
  · obtain ⟨hp, _, _, hc, _, _, he⟩ := h
    exact .enabling (.inl rfl) hp hc (he.imp_left fun he => ⟨rfl, he⟩)
  · obtain ⟨hp, _, _, hc, _, _, he⟩ := h
    exact .enabling (.inr rfl) hp hc (.inr he)
  · exact h.elim

theorem configPhase_le {n : Nat} (h : s.configPhase n) : n ≤ 22 := by
  cases configPhase_engine h <;> omega

/-- Outside CONFIG nothing is pending (R103). -/
theorem commandPhase_quiet {c : Option Cmd} {n : Nat} (hc : c ≠ some .config) (h : s.commandPhase c n) : s.Quiet := by
  unfold State.commandPhase at h
  split at h
  · exact h
  · exact h.2.1
  · exact h.2.1
  · exact absurd rfl hc
  · exact h.2
  · exact h.2
  · exact h.1

theorem off_of_freshEngine {ctrla : Ctrla} {baud : BitVec 16} (h : s.FreshEngine ctrla baud) : s.Off := by
  obtain ⟨rxData, h⟩ := h
  simp [State.Off, State.Quiet, h, Engine.resetWith]

theorem rxc_of_freshEngine {ctrla : Ctrla} {baud : BitVec 16} (h : s.FreshEngine ctrla baud) : s.eng.rxc = false := by
  obtain ⟨rxData, h⟩ := h
  rw [h]
  rfl

section
variable (hinv : s.Inv)
include hinv

theorem State.Inv.configPhase {n : Nat} (hc : s.cur = some .config) (hn : s.sp = n) : s.configPhase n := by
  have h := hinv.command
  rwa [hc, hn] at h

/-- Something is pending only while a CONFIG runs. -/
theorem State.Inv.quiet_or_config : s.Quiet ∨ s.cur = some .config ∧ s.ConfigEngine s.sp := by
  by_cases hc : s.cur = some .config
  · exact .inr ⟨hc, configPhase_engine (hinv.configPhase hc rfl)⟩
  · exact .inl (commandPhase_quiet hc hinv.command)

/-- A pending enable is the disable of S3 or the enable of S20. -/
theorem State.Inv.of_pendEnable {v : Bool} (h : s.eng.pendEnable = some v) :
    s.cur = some .config ∧ (s.sp = 4 ∧ v = false ∨ s.sp = 21 ∧ v = true) := by
  rcases hinv.quiet_or_config with ⟨hp, _⟩ | ⟨hc, he⟩
  · simp [hp] at h
  · refine ⟨hc, ?_⟩
    cases he with
    | before _ quiet => simp [quiet.1] at h
    | disabling hn _ _ enable =>
      rcases enable with hp | ⟨hp, _⟩
      · exact .inl ⟨hn, by simpa [hp] using h.symm⟩
      · simp [hp] at h
    | off _ off => simp [off.1.1] at h
    | resetting _ _ notEnabled => simp [notEnabled.1] at h
    | fresh _ _ _ _ fresh => simp [(off_of_freshEngine fresh).1.1] at h
    | programmed _ _ _ notEnabled => simp [notEnabled.1] at h
    | enabling _ _ _ enable =>
      rcases enable with ⟨hn, hp⟩ | ⟨hp, _⟩
      · exact .inr ⟨hn, by simpa [hp] using h.symm⟩
      · simp [hp] at h

/-- A pending CTRLB is the write of S16. -/
theorem State.Inv.of_pendCtrlb {c : Ctrlb} (h : s.eng.pendCtrlb = some c) :
    s.cur = some .config ∧ s.sp = 17 ∧ c = frameControl := by
  rcases hinv.quiet_or_config with ⟨_, hp, _⟩ | ⟨hc, he⟩
  · simp [hp] at h
  · refine ⟨hc, ?_⟩
    cases he with
    | before _ quiet => simp [quiet.2.1] at h
    | disabling _ _ noCtrlb => simp [noCtrlb] at h
    | off _ off => simp [off.1.2.1] at h
    | resetting _ _ _ noCtrlb => simp [noCtrlb] at h
    | fresh _ _ _ _ fresh => simp [(off_of_freshEngine fresh).1.2.1] at h
    | programmed _ _ _ _ ctrlb =>
      rcases ctrlb with ⟨hn, hp⟩ | ⟨hp, _⟩
      · exact ⟨hn, by simpa [hp] using h.symm⟩
      · simp [hp] at h
    | enabling _ _ controlled => simp [controlled.1] at h

/-- A pending engine reset is the one of S5. -/
theorem State.Inv.of_swrstPending (h : s.eng.swrstPending = true) :
    s.cur = some .config ∧ s.sp = 6 ∧ s.NotEnabled ∧ s.eng.pendCtrlb = none := by
  rcases hinv.quiet_or_config with ⟨_, _, hp⟩ | ⟨hc, he⟩
  · simp [hp] at h
  · refine ⟨hc, ?_⟩
    cases he with
    | before _ quiet => simp [quiet.2.2] at h
    | disabling _ noReset => simp [noReset] at h
    | off _ off => simp [off.1.2.2] at h
    | resetting hn _ notEnabled noCtrlb => exact ⟨hn, notEnabled, noCtrlb⟩
    | fresh _ _ _ _ fresh => simp [(off_of_freshEngine fresh).1.2.2] at h
    | programmed _ _ programmed => simp [programmed.2.2.1] at h
    | enabling _ programmed => simp [programmed.2.2.1] at h

theorem State.Inv.syncEnable_eq_false (hp : s.eng.pendEnable = none) : s.eng.syncEnable = false := by
  rw [hinv.sync.1, hp]
  rfl

theorem State.Inv.pendEnable_eq_none (hs : s.eng.syncEnable = false) : s.eng.pendEnable = none := by
  simpa [hs] using hinv.sync.1

theorem State.Inv.pendCtrlb_eq_none (hs : s.eng.syncCtrlb = false) : s.eng.pendCtrlb = none := by
  simpa [hs] using hinv.sync.2

end

/-! ## Traffic: what the phase does not read of the engine -/

/-- The received byte, its flag and an emptied holding register matter to no phase but those of a freshly reset engine. -/
theorem commandPhase_traffic {c : Option Cmd} {n : Nat} {x : Bool} {d : Byte} {hold : Option Byte}
    (h : s.commandPhase c n) (hon : s.eng.enableApplied = true ∨ s.eng.rxc = true)
    (hh : hold = s.eng.txHold ∨ hold = none) :
    ({ s with eng := { s.eng with rxc := x, rxData := d, txHold := hold } } : State).commandPhase c n := by
  have notFresh (ctrla baud) : ¬ s.FreshEngine ctrla baud := fun hf => by
    simp [(off_of_freshEngine hf).2, rxc_of_freshEngine hf] at hon
  have programmed (hp : s.Programmed) :
      ({ s with eng := { s.eng with rxc := x, rxData := d, txHold := hold } } : State).Programmed := by
    obtain ⟨ha, hb, hr, ht⟩ := hp
    exact ⟨ha, hb, hr, hh.elim (·.trans ht) id⟩
  unfold State.commandPhase at h
  split at h
  · exact h
  · exact h
  · exact h
  · unfold State.configPhase at h
    split at h
    iterate 6 exact h
    · obtain ⟨hne, hc, hq, hr | hf⟩ := h
      · exact ⟨hne, hc, hq, .inl hr⟩
      · exact absurd hf (notFresh _ _)
    iterate 10 exact absurd h.1 (notFresh _ _)
    iterate 6 exact ⟨programmed h.1, h.2⟩
    · exact h.elim
  · exact h
  · exact h
  · obtain ⟨hq, hn | ⟨hn, hw, ht⟩⟩ := h
    · exact ⟨hq, .inl hn⟩
    · exact ⟨hq, .inr ⟨hn, hw, fun hon => hh.elim (·.trans (ht hon)) id⟩⟩
end
end Sys2Proof.Machine
end

section
/-! PROOF. Every move keeps the invariant, and records only the faults it is the source of (R147, R153–R160): the
numbered steps of the commands first, then the ISR, the engine and the line. -/

namespace Sys2Proof.Machine

/-- The faults that the move `m` may record in `s`: each of the four reachable ones has one source (R153–R156). -/
def State.MayRecord (s : State) (m : Move) : FaultName → Prop
  | .txOverrun => m = .mainline ∧ s.standsAt .wrnb 0
  | .txDisabled => m = .mainline ∧ (s.standsAt .wrnb 0 ∨ s.standsAt .wrblk 1) ∧ s.eng.transmitterOn = false
  | .illegalCmd => m = .host ∧ ∃ w e, s.hostWords.head? = some w ∧ decode .mainline w = .error e
  | .rxOverflow => m = .line ∧ s.eng.rxc = true
  | .rxEmptyRead => False
  | .syncViolation => False
  | .resetAccess => False
  | .protectedWrite => False

/-- What a move `m` from a state with the invariant does: `t` has the parts of the invariant that a move can touch, and a
fault that is new in it has its source in `m`. -/
structure Keeps (m : Move) (s t : State) : Prop where
  pins : t.PinsOwned
  sync : t.SyncAgree
  command : t.commandPhase t.cur t.sp
  isr : t.isrPhase t.isrSp
  faults : t.faults = s.faults ∨ ∃ n, s.MayRecord m n ∧ t.faults = addFault n s.faults

section
variable {s t : State} {m : Move}

theorem isrPhase_of_idle (h : t.isrSp = none) : t.isrPhase t.isrSp := by
  rw [h]
  trivial

theorem commandPhase_of {c : Option Cmd} {n : Nat} (hc : t.cur = c) (hn : t.sp = n) (h : t.commandPhase c n) :
    t.commandPhase t.cur t.sp := by
  rw [hc, hn]
  exact h

/-- A move that touches nothing the invariant speaks of. -/
theorem Keeps.refl (hinv : s.Inv) : Keeps m s s := ⟨hinv.pins, hinv.sync, hinv.command, hinv.isr, .inl rfl⟩

/-- A step of a CONFIG, which ends where the ISR is idle and records no fault. -/
theorem Keeps.config {n : Nat} (hi : t.isrSp = none) (hc : t.cur = some .config) (hn : t.sp = n)
    (hf : t.faults = s.faults) (pins : t.PinsOwned) (sync : t.SyncAgree) (phase : t.configPhase n) : Keeps m s t :=
  ⟨pins, sync, commandPhase_of hc hn phase, isrPhase_of_idle hi, .inl hf⟩

section
variable (hinv : s.Inv)
include hinv

/-! ## CONFIG: up to the engine reset -/

theorem configS0_keeps (h : s.standsAt .config 0) : Keeps m s (configS0 s) := by
  obtain ⟨hi, hc, hn⟩ := h
  have hq : s.Quiet := hinv.configPhase hc hn
  rw [configS0_quiet hq.2.2 (hinv.syncEnable_eq_false hq.1)]
  exact .config hi hc rfl rfl hinv.pins hinv.sync ⟨hq, rfl, rfl⟩

theorem configS1_keeps (h : s.standsAt .config 1) : Keeps m s (configS1 s) := by
  obtain ⟨hi, hc, hn⟩ := h
  obtain ⟨hq, he, hseq⟩ : s.Quiet ∧ s.eTmp = s.eng.enableApplied ∧ s.seq = .disabled := hinv.configPhase hc hn
  have ⟨hp, hb, hr⟩ := hq
  cases hTmp : s.eTmp with
  | true =>
    exact .config hi hc (n := 2) (by simp [configS1, hTmp]) rfl hinv.pins hinv.sync ⟨hq, hseq⟩
  | false =>
    exact .config hi hc (n := 4) (by simp [configS1, hTmp]) rfl hinv.pins hinv.sync
      ⟨.inl hseq, hr, hb, .inr ⟨hp, he.symm.trans hTmp⟩⟩

theorem configS2_keeps (h : s.standsAt .config 2) : Keeps m s (configS2 s) := by
  obtain ⟨hi, hc, hn⟩ := h
  have hphase : s.Quiet ∧ s.seq = .disabled := hinv.configPhase hc hn
  rw [configS2, pollNotBusy_eq]
  refine .config hi hc (n := 3) (if_neg ?_) rfl hinv.pins hinv.sync hphase
  simp [hphase.1.2.2, hinv.syncEnable_eq_false hphase.1.1]

theorem configS3_keeps (h : s.standsAt .config 3) : Keeps m s (configS3 s) := by
  obtain ⟨hi, hc, hn⟩ := h
  obtain ⟨⟨hp, hb, hr⟩, hseq⟩ : s.Quiet ∧ s.seq = .disabled := hinv.configPhase hc hn
  rw [configS3_legal hr (hinv.syncEnable_eq_false hp)]
  exact .config hi hc rfl rfl hinv.pins ⟨rfl, hinv.sync.2⟩ ⟨.inl hseq, hr, hb, .inl rfl⟩

theorem configS4_keeps (h : s.standsAt .config 4) : Keeps m s (configS4 s) := by
  obtain ⟨hi, hc, hn⟩ := h
  obtain ⟨_, hr, hb, he⟩ : (s.seq = .disabled ∨ s.seq = .resetting) ∧ s.eng.swrstPending = false ∧
    s.eng.pendCtrlb = none ∧ (s.eng.pendEnable = some false ∨ s.NotEnabled) := hinv.configPhase hc hn
  rw [configS4, pollNotBusy_eq]
  cases hs : s.eng.syncEnable with
  | true =>
    exact .config hi hc (n := 4) (by simp) rfl hinv.pins (hs ▸ hinv.sync) ⟨.inr rfl, hr, hb, he⟩
  | false =>
    have hp := hinv.pendEnable_eq_none hs
    have hne : s.NotEnabled := he.resolve_left (by simp [hp])
    exact .config hi hc (n := 5) (by simp [hr]) rfl hinv.pins hinv.sync ⟨⟨⟨hp, hb, hr⟩, hne.2⟩, rfl⟩

theorem configS5_keeps (h : s.standsAt .config 5) : Keeps m s (configS5 s) := by
  obtain ⟨hi, hc, hn⟩ := h
  obtain ⟨⟨⟨hp, hb, hr⟩, he⟩, hseq⟩ : s.Off ∧ s.seq = .resetting := hinv.configPhase hc hn
  rw [configS5_legal hr (hinv.syncEnable_eq_false hp)]
  exact .config hi hc rfl rfl hinv.pins hinv.sync ⟨⟨hp, he⟩, hb, hseq, .inl rfl⟩

theorem configS6_keeps (h : s.standsAt .config 6) : Keeps m s (configS6 s) := by
  obtain ⟨hi, hc, hn⟩ := h
  obtain ⟨hne, hb, hseq, hreset⟩ : s.NotEnabled ∧ s.eng.pendCtrlb = none ∧ s.seq = .resetting ∧
    (s.eng.swrstPending = true ∨ s.FreshEngine Ctrla.reset 0) := hinv.configPhase hc hn
  rw [configS6, pollNotBusy_eq]
  cases hr : s.eng.swrstPending with
  | true => exact .config hi hc (n := 6) (by simp) rfl hinv.pins hinv.sync ⟨hne, hb, hseq, .inl hr⟩
  | false =>
    have hfresh : s.FreshEngine Ctrla.reset 0 := hreset.resolve_left (by simp [hr])
    exact .config hi hc (n := 7) (by simp [hinv.syncEnable_eq_false hne.1]) rfl hinv.pins hinv.sync ⟨hfresh, hseq⟩

/-! ## CONFIG: from the engine reset to the enable -/

theorem configS7_keeps (h : s.standsAt .config 7) : Keeps m s (configS7 s) := by
  obtain ⟨hi, hc, hn⟩ := h
  obtain ⟨hfresh, _⟩ : s.FreshEngine Ctrla.reset 0 ∧ s.seq = .resetting := hinv.configPhase hc hn
  cases hReg : s.cReg with
  | true =>
    exact .config hi hc (n := 8) (by simp [configS7, hReg]) rfl hinv.pins hinv.sync ⟨hfresh, rfl, hReg⟩
  | false =>
    exact .config hi hc (n := 11) (by simp [configS7, hReg]) rfl hinv.pins hinv.sync
      ⟨hfresh, rfl, fun hTrue => absurd (hReg.symm.trans hTrue) nofun⟩

theorem configS8_keeps (h : s.standsAt .config 8) : Keeps m s (configS8 s) := by
  obtain ⟨hi, hc, hn⟩ := h
  obtain ⟨hfresh, hseq, hReg⟩ : s.FreshEngine Ctrla.reset 0 ∧ s.seq = .configuring ∧ s.cReg = true :=
    hinv.configPhase hc hn
  exact .config hi hc rfl rfl (fun ha => ⟨rfl, (hinv.pins ha).2⟩) hinv.sync ⟨hfresh, hseq, hReg, rfl⟩

theorem configS9_keeps (h : s.standsAt .config 9) : Keeps m s (configS9 s) := by
  obtain ⟨hi, hc, hn⟩ := h
  obtain ⟨hfresh, hseq, hReg, htx⟩ : s.FreshEngine Ctrla.reset 0 ∧ s.seq = .configuring ∧ s.cReg = true ∧
    s.plat.txPinFn = s.uartFn := hinv.configPhase hc hn
  exact .config hi hc rfl rfl (fun _ => ⟨htx, rfl⟩) hinv.sync ⟨hfresh, hseq, hReg, htx, rfl⟩

theorem configS10_keeps (h : s.standsAt .config 10) : Keeps m s (configS10 s) := by
  obtain ⟨hi, hc, hn⟩ := h
  obtain ⟨hfresh, hseq, _, hpins⟩ : s.FreshEngine Ctrla.reset 0 ∧ s.seq = .configuring ∧ s.cReg = true ∧
    s.pinsAreUart := hinv.configPhase hc hn
  exact .config hi hc rfl rfl (fun _ => hpins) hinv.sync ⟨hfresh, hseq, fun _ => rfl⟩

theorem configS11_keeps (h : s.standsAt .config 11) : Keeps m s (configS11 s) := by
  obtain ⟨hi, hc, hn⟩ := h
  obtain ⟨hfresh, hseq, hactive⟩ : s.FreshEngine Ctrla.reset 0 ∧ s.seq = .configuring ∧
    (s.cReg = true → s.active = true) := hinv.configPhase hc hn
  exact .config hi hc rfl rfl hinv.pins hinv.sync ⟨hfresh, hseq, hactive, rfl⟩

theorem configS12_keeps (h : s.standsAt .config 12) : Keeps m s (configS12 s) := by
  obtain ⟨hi, hc, hn⟩ := h
  obtain ⟨hfresh, hseq, hactive, hbus⟩ : s.FreshEngine Ctrla.reset 0 ∧ s.seq = .configuring ∧
    (s.cReg = true → s.active = true) ∧ s.plat.busClkOn = true := hinv.configPhase hc hn
  exact .config hi hc rfl rfl hinv.pins hinv.sync ⟨hfresh, hseq, hactive, hbus, rfl⟩

omit hinv in
/-- A freshly reset engine takes every whole write (R81). -/
theorem unprotected_of_freshEngine {ctrla : Ctrla} {baud : BitVec 16} (h : s.FreshEngine ctrla baud) :
    s.eng.swrstPending = false ∧ s.eng.writeProtected = false :=
  have ⟨⟨hp, _, hr⟩, he⟩ := off_of_freshEngine h
  ⟨hr, (writeProtected_iff _).mpr ⟨he, hp⟩⟩

theorem configS13_keeps (h : s.standsAt .config 13) : Keeps m s (configS13 s) := by
  obtain ⟨hi, hc, hn⟩ := h
  obtain ⟨hfresh, hseq, hrouted⟩ : s.FreshEngine Ctrla.reset 0 ∧ s.seq = .configuring ∧ s.Routed :=
    hinv.configPhase hc hn
  obtain ⟨hr, hp⟩ := unprotected_of_freshEngine hfresh
  obtain ⟨rxData, heng⟩ := hfresh
  rw [configS13_legal hr hp]
  exact .config hi hc rfl rfl hinv.pins hinv.sync ⟨⟨rxData, by rw [heng]⟩, hseq, hrouted⟩

theorem configS14_keeps (h : s.standsAt .config 14) : Keeps m s (configS14 s) := by
  obtain ⟨hi, hc, hn⟩ := h
  obtain ⟨hfresh, hseq, hrouted⟩ : s.FreshEngine (modeFraming s.params).fields 0 ∧ s.seq = .configuring ∧ s.Routed :=
    hinv.configPhase hc hn
  exact .config hi hc rfl rfl hinv.pins hinv.sync ⟨hfresh, hseq, hrouted, dividedDatapath_dReg hinv.fragments⟩

theorem configS15_keeps (h : s.standsAt .config 15) : Keeps m s (configS15 s) := by
  obtain ⟨hi, hc, hn⟩ := h
  obtain ⟨hfresh, hseq, hrouted, hdiv⟩ : s.FreshEngine (modeFraming s.params).fields 0 ∧ s.seq = .configuring ∧
    s.Routed ∧ s.dp.dReg = s.divisor := hinv.configPhase hc hn
  obtain ⟨hr, hp⟩ := unprotected_of_freshEngine hfresh
  obtain ⟨rxData, heng⟩ := hfresh
  rw [configS15_legal hr hp]
  exact .config hi hc rfl rfl hinv.pins hinv.sync ⟨⟨rxData, by rw [heng, hdiv]; rfl⟩, hseq, hrouted⟩

theorem configS16_keeps (h : s.standsAt .config 16) : Keeps m s (configS16 s) := by
  obtain ⟨hi, hc, hn⟩ := h
  obtain ⟨hfresh, hseq, hrouted⟩ : s.FreshEngine (modeFraming s.params).fields s.divisor ∧ s.seq = .configuring ∧
    s.Routed := hinv.configPhase hc hn
  obtain ⟨hr, hp⟩ := unprotected_of_freshEngine hfresh
  obtain ⟨⟨hpe, hpc, _⟩, he⟩ := off_of_freshEngine hfresh
  obtain ⟨rxData, heng⟩ := hfresh
  rw [configS16_legal hr hp (by rw [hinv.sync.2, hpc]; rfl)]
  exact .config hi hc rfl rfl hinv.pins ⟨hinv.sync.1, rfl⟩
    ⟨⟨by rw [heng], by rw [heng]; rfl, hr, by rw [heng]; rfl⟩, hseq, hrouted, ⟨hpe, he⟩, .inl rfl⟩

theorem configS17_keeps (h : s.standsAt .config 17) : Keeps m s (configS17 s) := by
  obtain ⟨hi, hc, hn⟩ := h
  obtain ⟨hprog, hseq, hrouted, hne, hctrlb⟩ : s.Programmed ∧ s.seq = .configuring ∧ s.Routed ∧ s.NotEnabled ∧
    (s.eng.pendCtrlb = some frameControl ∨ s.Controlled) := hinv.configPhase hc hn
  cases hs : s.eng.syncCtrlb with
  | true =>
    exact .config hi hc (n := 17) (by simp [configS17, State.readSyncCtrlb, hs]) rfl hinv.pins hinv.sync
      ⟨hprog, hseq, hrouted, hne, hctrlb⟩
  | false =>
    have hcon : s.Controlled := hctrlb.resolve_left (by simp [hinv.pendCtrlb_eq_none hs])
    exact .config hi hc (n := 18) (by simp [configS17, State.readSyncCtrlb, hs]) rfl hinv.pins hinv.sync
      ⟨hprog, hseq, hrouted, hne, hcon⟩

theorem configS18_keeps (h : s.standsAt .config 18) : Keeps m s (configS18 s) := by
  obtain ⟨hi, hc, hn⟩ := h
  obtain ⟨hprog, hseq, hrouted, hne, hcon⟩ : s.Programmed ∧ s.seq = .configuring ∧ s.Routed ∧ s.NotEnabled ∧
    s.Controlled := hinv.configPhase hc hn
  have ⟨_, _, hr, _⟩ := hprog
  rw [configS18_legal hr]
  exact .config hi hc rfl rfl hinv.pins hinv.sync ⟨hprog, hseq, hrouted, hne, hcon, rfl⟩

theorem configS19_keeps (h : s.standsAt .config 19) : Keeps m s (configS19 s) := by
  obtain ⟨hi, hc, hn⟩ := h
  obtain ⟨hprog, hseq, hrouted, hne, hcon, hirq⟩ : s.Programmed ∧ s.seq = .configuring ∧ s.Routed ∧ s.NotEnabled ∧
    s.Controlled ∧ s.eng.intenRxc = true := hinv.configPhase hc hn
  exact .config hi hc rfl rfl hinv.pins hinv.sync ⟨hprog, hseq, hrouted, hne, hcon, hirq, rfl⟩

theorem configS20_keeps (h : s.standsAt .config 20) : Keeps m s (configS20 s) := by
  obtain ⟨hi, hc, hn⟩ := h
  obtain ⟨hprog, _, hrouted, hne, hcon, hirq, hline⟩ : s.Programmed ∧ s.seq = .configuring ∧ s.Routed ∧ s.NotEnabled ∧
    s.Controlled ∧ s.eng.intenRxc = true ∧ s.plat.lineUnmasked = true := hinv.configPhase hc hn
  have ⟨_, _, hr, _⟩ := hprog
  rw [configS20_legal hr (hinv.syncEnable_eq_false hne.1)]
  exact .config hi hc rfl rfl hinv.pins ⟨rfl, hinv.sync.2⟩ ⟨hprog, rfl, hrouted, hcon, hirq, hline, .inl rfl⟩

theorem configS21_keeps (h : s.standsAt .config 21) : Keeps m s (configS21 s) := by
  obtain ⟨hi, hc, hn⟩ := h
  obtain ⟨hprog, hseq, hrouted, hcon, hirq, hline, he⟩ : s.Programmed ∧ s.seq = .enabled ∧ s.Routed ∧ s.Controlled ∧
    s.eng.intenRxc = true ∧ s.plat.lineUnmasked = true ∧
    (s.eng.pendEnable = some true ∨ s.eng.pendEnable = none ∧ s.eng.enableApplied = true) := hinv.configPhase hc hn
  cases hs : s.eng.syncEnable with
  | true =>
    exact .config hi hc (n := 21) (by simp [configS21, State.readSyncEnable, hs]) rfl hinv.pins hinv.sync
      ⟨hprog, hseq, hrouted, hcon, hirq, hline, he⟩
  | false =>
    have hlive := he.resolve_left (by simp [hinv.pendEnable_eq_none hs])
    exact .config hi hc (n := 22) (by simp [configS21, State.readSyncEnable, hs]) rfl hinv.pins hinv.sync
      ⟨hprog, hseq, hrouted, hcon, hirq, hline, hlive⟩

theorem configS22_keeps (h : s.standsAt .config 22) : Keeps m s (configS22 s) := by
  obtain ⟨hi, hc, hn⟩ := h
  obtain ⟨hprog, _, _, hcon, _, _, hp, _⟩ : s.Programmed ∧ s.seq = .enabled ∧ s.Routed ∧ s.Controlled ∧
    s.eng.intenRxc = true ∧ s.plat.lineUnmasked = true ∧ s.eng.pendEnable = none ∧ s.eng.enableApplied = true :=
    hinv.configPhase hc hn
  exact ⟨hinv.pins, hinv.sync, ⟨hp, hcon.1, hprog.2.2.1⟩, isrPhase_of_idle hi, .inl rfl⟩

theorem configStep_keeps (hi : s.isrSp = none) (hc : s.cur = some .config) (h : configStep s = .next t) :
    Keeps m s t := by
  have stands {n : Nat} (hn : s.sp = n) : s.standsAt .config n := ⟨hi, hc, hn⟩
  rcases configStep_cases h with ⟨hn, rfl⟩ | ⟨hn, rfl⟩ | ⟨hn, rfl⟩ | ⟨hn, rfl⟩ | ⟨hn, rfl⟩ | ⟨hn, rfl⟩ | ⟨hn, rfl⟩ |
    ⟨hn, rfl⟩ | ⟨hn, rfl⟩ | ⟨hn, rfl⟩ | ⟨hn, rfl⟩ | ⟨hn, rfl⟩ | ⟨hn, rfl⟩ | ⟨hn, rfl⟩ | ⟨hn, rfl⟩ | ⟨hn, rfl⟩ |
    ⟨hn, rfl⟩ | ⟨hn, rfl⟩ | ⟨hn, rfl⟩ | ⟨hn, rfl⟩ | ⟨hn, rfl⟩ | ⟨hn, rfl⟩ | ⟨hn, rfl⟩
  exacts [configS0_keeps hinv (stands hn), configS1_keeps hinv (stands hn), configS2_keeps hinv (stands hn),
    configS3_keeps hinv (stands hn), configS4_keeps hinv (stands hn), configS5_keeps hinv (stands hn),
    configS6_keeps hinv (stands hn), configS7_keeps hinv (stands hn), configS8_keeps hinv (stands hn),
    configS9_keeps hinv (stands hn), configS10_keeps hinv (stands hn), configS11_keeps hinv (stands hn),
    configS12_keeps hinv (stands hn), configS13_keeps hinv (stands hn), configS14_keeps hinv (stands hn),
    configS15_keeps hinv (stands hn), configS16_keeps hinv (stands hn), configS17_keeps hinv (stands hn),
    configS18_keeps hinv (stands hn), configS19_keeps hinv (stands hn), configS20_keeps hinv (stands hn),
    configS21_keeps hinv (stands hn), configS22_keeps hinv (stands hn)]

/-! ## The pin commands -/

theorem claimStep_keeps (hi : s.isrSp = none) (hc : s.cur = some .claim) (h : claimStep s = .next t) : Keeps m s t := by
  have hphase := hinv.command
  rw [hc] at hphase
  obtain ⟨_, hq, hpins⟩ := hphase
  rcases claimStep_cases h with ⟨_, rfl⟩ | ⟨hn, rfl⟩ | ⟨hn, rfl⟩
  · exact ⟨fun ha => ⟨rfl, (hinv.pins ha).2⟩, hinv.sync, commandPhase_of (n := 1) hc rfl ⟨by decide, hq, rfl⟩,
      isrPhase_of_idle hi, .inl rfl⟩
  · rw [hn] at hpins
    exact ⟨fun _ => ⟨hpins, rfl⟩, hinv.sync, commandPhase_of (n := 2) hc rfl ⟨by decide, hq, hpins, rfl⟩,
      isrPhase_of_idle hi, .inl rfl⟩
  · rw [hn] at hpins
    exact ⟨fun _ => hpins, hinv.sync, hq, isrPhase_of_idle hi, .inl rfl⟩

theorem releaseStep_keeps (hi : s.isrSp = none) (hc : s.cur = some .release) (h : releaseStep s = .next t) :
    Keeps m s t := by
  have hphase := hinv.command
  rw [hc] at hphase
  obtain ⟨_, hq, hpins⟩ := hphase
  -- From L0 on the Active Flag is 0, so nothing is claimed of the pins.
  have released {u : State} (ha : u.active = false) : u.PinsOwned := fun ha' => absurd (ha.symm.trans ha') nofun
  rcases releaseStep_cases h with ⟨_, rfl⟩ | ⟨hn, rfl⟩ | ⟨hn, rfl⟩
  · exact ⟨released rfl, hinv.sync, commandPhase_of (n := 1) hc rfl ⟨by decide, hq, rfl⟩, isrPhase_of_idle hi, .inl rfl⟩
  · rw [hn] at hpins
    exact ⟨released hpins, hinv.sync, commandPhase_of (n := 2) hc rfl ⟨by decide, hq, hpins⟩, isrPhase_of_idle hi, .inl rfl⟩
  · rw [hn] at hpins
    exact ⟨released hpins, hinv.sync, hq, isrPhase_of_idle hi, .inl rfl⟩

/-! ## The byte exchange -/

theorem rdyqStep_keeps (hi : s.isrSp = none) (hc : s.cur = some .rdyq) (h : rdyqStep s = .next t) : Keeps m s t := by
  have hq := commandPhase_quiet (by simp [hc]) hinv.command
  obtain ⟨_, rfl⟩ := rdyqStep_cases h
  cases ht : s.eng.transmitterOn with
  | true => rw [readDre_on hq.2.2 ht]; exact ⟨hinv.pins, hinv.sync, hq, isrPhase_of_idle hi, .inl rfl⟩
  | false => rw [readDre_off hq.2.2 ht]; exact ⟨hinv.pins, hinv.sync, hq, isrPhase_of_idle hi, .inl rfl⟩

theorem wrnbStep_keeps (hi : s.isrSp = none) (hc : s.cur = some .wrnb) (h : wrnbStep s = .next t) :
    Keeps .mainline s t := by
  have hq := commandPhase_quiet (by simp [hc]) hinv.command
  obtain ⟨hn, rfl⟩ := wrnbStep_cases h
  rcases writeData_cases s s.bReg with ⟨_, heq, ⟨rfl, hr⟩ | ⟨rfl, hoff⟩ | ⟨rfl, _⟩⟩ | ⟨_, _, _, heq⟩
  · simp [hq.2.2] at hr
  all_goals rw [heq]
  · exact ⟨hinv.pins, hinv.sync, hq, isrPhase_of_idle hi,
      .inr ⟨.txDisabled, ⟨rfl, .inl ⟨hi, hc, hn⟩, hoff⟩, rfl⟩⟩
  · exact ⟨hinv.pins, hinv.sync, hq, isrPhase_of_idle hi, .inr ⟨.txOverrun, ⟨rfl, hi, hc, hn⟩, rfl⟩⟩
  · exact ⟨hinv.pins, hinv.sync, hq, isrPhase_of_idle hi, .inl rfl⟩

/-- What B0 knows when it goes on: DRE was read 1, so a transmitter that is on has room (R141, R147). -/
theorem wrblkStep_keeps (hi : s.isrSp = none) (hc : s.cur = some .wrblk) (h : wrblkStep s = .next t) :
    Keeps .mainline s t := by
  have hphase := hinv.command
  rw [hc] at hphase
  obtain ⟨hq, hphase⟩ := hphase
  rcases wrblkStep_cases h with ⟨_, rfl⟩ | ⟨hn, rfl⟩
  · cases ht : s.eng.transmitterOn with
    | true =>
      rw [readDre_on hq.2.2 ht]
      refine ⟨hinv.pins, hinv.sync, commandPhase_of hc rfl ⟨hq, ?_⟩, isrPhase_of_idle hi, .inl rfl⟩
      cases hh : s.eng.txHold with
      | some b => exact .inl rfl
      | none => exact .inr ⟨rfl, rfl, fun _ => hh⟩
    | false =>
      rw [readDre_off hq.2.2 ht]
      refine ⟨hinv.pins, hinv.sync, commandPhase_of hc rfl ⟨hq, ?_⟩, isrPhase_of_idle hi, .inl rfl⟩
      cases hb : Config.freeBit s.draws with
      | false => exact .inl rfl
      | true => exact .inr ⟨rfl, rfl, fun hon => absurd (ht.symm.trans hon) nofun⟩
  · obtain ⟨_, _, hroom⟩ := hphase.resolve_left (by simp [hn])
    rcases writeData_cases s s.bReg with ⟨_, heq, ⟨rfl, hr⟩ | ⟨rfl, hoff⟩ | ⟨rfl, hon, hfull⟩⟩ | ⟨_, _, _, heq⟩
    · simp [hq.2.2] at hr
    · rw [heq]
      exact ⟨hinv.pins, hinv.sync, hq, isrPhase_of_idle hi,
        .inr ⟨.txDisabled, ⟨rfl, .inr ⟨hi, hc, hn⟩, hoff⟩, rfl⟩⟩
    · exact absurd (hroom hon) hfull
    · rw [heq]
      exact ⟨hinv.pins, hinv.sync, hq, isrPhase_of_idle hi, .inl rfl⟩

theorem sequenceOf_keeps {c : Cmd} (hi : s.isrSp = none) (hc : s.cur = some c) (h : sequenceOf c s = .next t) :
    Keeps .mainline s t := by
  cases c with
  | claim => exact claimStep_keeps hinv hi hc h
  | release => exact releaseStep_keeps hinv hi hc h
  | config => exact configStep_keeps hinv hi hc h
  | rdyq => exact rdyqStep_keeps hinv hi hc h
  | wrnb => exact wrnbStep_keeps hinv hi hc h
  | wrblk => exact wrblkStep_keeps hinv hi hc h

/-! ## The other agents -/

/-- A command starts where nothing is pending. -/
theorem accept_keeps {i : Instr} {c : Cmd} (hidle : s.idle) : Keeps m s (s.accept i c) := by
  have hq := commandPhase_quiet (by simp [hidle.1]) hinv.command
  have hq' : (s.accept i c).Quiet := by simpa [State.Quiet] using hq
  refine ⟨?_, by simpa [State.SyncAgree] using hinv.sync, ?_, isrPhase_of_idle (by simp [hidle.2]), .inl (by simp)⟩
  · simpa [State.PinsOwned, State.pinsAreUart, State.uartFn] using hinv.pins
  · cases c with
    | claim => exact ⟨Nat.zero_le _, hq', trivial⟩
    | release => exact ⟨Nat.zero_le _, hq', trivial⟩
    | config => exact hq'
    | rdyq => exact ⟨rfl, hq'⟩
    | wrnb => exact ⟨rfl, hq'⟩
    | wrblk => exact ⟨hq', .inl rfl⟩

theorem rxisr_keeps (h : exec .rxisr s = .next t) : Keeps m s t := by
  rcases rxisr_cases h with ⟨_, hready, rfl⟩ | ⟨_, _, rfl⟩ | ⟨hat, _⟩ | ⟨hat, _⟩ | ⟨hat, rfl⟩
  · obtain ⟨⟨hx, _, hr⟩, _⟩ := (dispatchReady_iff s).mp hready
    exact ⟨hinv.pins, hinv.sync, hinv.command, ⟨hr, hx⟩, .inl rfl⟩
  · exact .refl hinv
  · obtain ⟨hr, hx⟩ := hinv.isr_at_i0 hat
    cases (exec_rxisr_i0_full hat hr hx).symm.trans h
    exact ⟨hinv.pins, hinv.sync, hinv.command, ⟨hr, hx, rfl⟩, .inl rfl⟩
  · obtain ⟨hr, hx, hf⟩ := hinv.isr_at_i1 hat
    cases (exec_rxisr_i1 hat hr hx).symm.trans h
    exact ⟨hinv.pins, hinv.sync, commandPhase_traffic hinv.command (.inr hx) (.inl rfl), ⟨hr, hf⟩, .inl rfl⟩
  · exact ⟨hinv.pins, hinv.sync, hinv.command, trivial, .inl rfl⟩

/-- The completion of an enable synchronisation serves S4, which waits for the disable, or S21. -/
theorem engSyncEnable_keeps : Keeps m s s.engSyncEnable := by
  have disabled (hp : s.eng.pendEnable = some false) : s.cur = some .config ∧ s.sp = 4 := by
    simpa using hinv.of_pendEnable hp
  have sync : false = (none : Option Bool).isSome ∧ s.eng.syncCtrlb = s.eng.pendCtrlb.isSome := ⟨rfl, hinv.sync.2⟩
  rcases engSyncEnable_cases s with ⟨_, heq⟩ | ⟨v, hp, _, heq⟩ | ⟨b, hp, _, heq⟩
  · rw [heq]
    exact .refl hinv
  · rw [heq]
    refine ⟨hinv.pins, sync, ?_, hinv.isr, .inl rfl⟩
    cases v with
    | false =>
      obtain ⟨hc, hn⟩ := disabled hp
      obtain ⟨hseq, hr, hb, _⟩ := hinv.configPhase hc hn
      exact commandPhase_of hc hn ⟨hseq, hr, hb, .inr ⟨rfl, rfl⟩⟩
    | true =>
      obtain ⟨hc, hn⟩ : s.cur = some .config ∧ s.sp = 21 := by simpa using hinv.of_pendEnable hp
      obtain ⟨hprog, hseq, hrouted, hcon, hirq, hline, _⟩ := hinv.configPhase hc hn
      exact commandPhase_of hc hn ⟨hprog, hseq, hrouted, hcon, hirq, hline, .inr ⟨rfl, rfl⟩⟩
  · obtain ⟨hc, hn⟩ := disabled hp
    obtain ⟨hseq, hr, hb, _⟩ := hinv.configPhase hc hn
    rw [heq]
    exact ⟨hinv.pins, sync, commandPhase_of hc hn ⟨hseq, hr, hb, .inr ⟨rfl, rfl⟩⟩, hinv.isr, .inl rfl⟩

/-- The completion of a CTRLB synchronisation serves S17. -/
theorem engSyncCtrlb_keeps : Keeps m s s.engSyncCtrlb := by
  rcases engSyncCtrlb_cases s with ⟨_, heq⟩ | ⟨c, hp, heq⟩
  · rw [heq]
    exact .refl hinv
  · obtain ⟨hc, hn, rfl⟩ := hinv.of_pendCtrlb hp
    obtain ⟨hprog, hseq, hrouted, hne, _⟩ := hinv.configPhase hc hn
    rw [heq]
    exact ⟨hinv.pins, ⟨hinv.sync.1, rfl⟩,
      commandPhase_of hc hn ⟨hprog, hseq, hrouted, hne, .inr ⟨rfl, rfl⟩⟩, hinv.isr, .inl rfl⟩

/-- The completion of an engine reset serves S6, and finds the ISR idle. -/
theorem engSwrstDone_keeps : Keeps m s s.engSwrstDone := by
  rcases engSwrstDone_cases s with ⟨_, heq⟩ | ⟨hr, heq⟩
  · rw [heq]
    exact .refl hinv
  · obtain ⟨hc, hn, _⟩ := hinv.of_swrstPending hr
    obtain ⟨_, _, hseq, _⟩ := hinv.configPhase hc hn
    rw [heq]
    exact ⟨hinv.pins, ⟨rfl, rfl⟩, commandPhase_of hc hn ⟨⟨rfl, rfl⟩, rfl, hseq, .inr ⟨_, rfl⟩⟩,
      isrPhase_of_idle (hinv.isr_idle_of_swrstPending hr), .inl rfl⟩

theorem engTx_keeps : Keeps m s s.engTx := by
  rcases engTx_cases s with ⟨_, heq⟩ | ⟨b, _, hready, heq⟩
  · rw [heq]
    exact .refl hinv
  · obtain ⟨he, _⟩ := (txReady_iff _).mp hready
    rw [heq]
    exact ⟨hinv.pins, hinv.sync, commandPhase_traffic hinv.command (.inl he) (.inr rfl), hinv.isr, .inl rfl⟩

/-- An arrival leaves the ISR what it needs: it only raises the flag. -/
theorem lineStep_keeps : Keeps .line s s.lineStep := by
  rcases lineStep_cases s with ⟨_, heq⟩ | ⟨b, rest, _, hready, ⟨hx, heq⟩ | ⟨_, heq⟩⟩
  · rw [heq]
    exact .refl hinv
  · rw [heq]
    exact ⟨hinv.pins, hinv.sync, hinv.command, hinv.isr, .inr ⟨.rxOverflow, ⟨rfl, hx⟩, rfl⟩⟩
  · obtain ⟨he, _⟩ := (rxReady_iff _).mp hready
    rw [heq]
    refine ⟨hinv.pins, hinv.sync, commandPhase_traffic hinv.command (.inl he) (.inl rfl), ?_, .inl rfl⟩
    have hphase := hinv.isr
    cases hat : s.isrSp with
    | none => trivial
    | some i =>
      rw [hat] at hphase
      cases i with
      | i0 => exact ⟨hphase.1, rfl⟩
      | i1 => exact ⟨hphase.1, rfl, hphase.2.2⟩
      | i2 => exact hphase

theorem runMove_keeps (h : runMove m s = .next t) : Keeps m s t := by
  rcases runMove_cases h with rfl | ⟨_, hidle, w, rest, i, c, _, _, _, rfl⟩ | ⟨rfl, hidle, w, rest, e, hw, he, rfl⟩ |
    ⟨rfl, hi, c, hc, hseq⟩ | ⟨_, hisr⟩ | ⟨_, rfl⟩ | ⟨_, rfl⟩ | ⟨_, rfl⟩ | ⟨_, rfl⟩ | ⟨rfl, rfl⟩
  · exact .refl hinv
  · have hrest : ({ s with hostWords := rest } : State).Inv := ⟨hinv.pins, hinv.sync, hinv.command, hinv.isr,
      hinv.fragments, hinv.noInternalFault, hinv.faultsCanonical⟩
    obtain ⟨pins, sync, command, isr, _⟩ := accept_keeps (m := m) hrest (i := i) (c := c) hidle
    exact ⟨pins, sync, command, isr, .inl (by simp)⟩
  · exact ⟨hinv.pins, hinv.sync, hinv.command, hinv.isr, .inr ⟨.illegalCmd, ⟨rfl, w, e, by simp [hw], he⟩, rfl⟩⟩
  · exact sequenceOf_keeps hinv hi hc hseq
  · exact rxisr_keeps hinv hisr
  · exact engSyncEnable_keeps hinv
  · exact engSyncCtrlb_keeps hinv
  · exact engSwrstDone_keeps hinv
  · exact engTx_keeps hinv
  · exact lineStep_keeps hinv

/-- A move keeps the invariant. -/
theorem runMove_inv (h : runMove m s = .next t) : t.Inv := by
  obtain ⟨pins, sync, command, isr, hfaults⟩ := runMove_keeps hinv h
  obtain ⟨hparams, h0, h1, h2, h3⟩ := runMove_sameConstants h
  refine ⟨pins, sync, command, isr, ?_, ?_, ?_⟩
  · unfold State.FragmentsLoaded
    rw [hparams, h0, h1, h2, h3]
    exact hinv.fragments
  · rcases hfaults with hf | ⟨n, hsource, hf⟩
    · unfold State.NoInternalFault
      rw [hf]
      exact hinv.noInternalFault
    · have := hinv.noInternalFault
      cases n <;> simp_all [State.NoInternalFault, State.MayRecord]
  · rcases hfaults with hf | ⟨n, _, hf⟩
    · unfold State.FaultsCanonical
      rw [hf]
      exact hinv.faultsCanonical
    · exact ⟨_, hf⟩

/-- The schedule is nothing the invariant speaks of. -/
theorem State.Inv.tick : s.tick.Inv :=
  ⟨hinv.pins, hinv.sync, hinv.command, hinv.isr, hinv.fragments, hinv.noInternalFault, hinv.faultsCanonical⟩

theorem step_keeps (h : step s = .next t) : Keeps s.nextMove s t := by
  obtain ⟨pins, sync, command, isr, hfaults⟩ := runMove_keeps hinv.tick (runMove_of_step h).2
  refine ⟨pins, sync, command, isr, hfaults.imp_right ?_⟩
  rintro ⟨n, hsource, hf⟩
  exact ⟨n, by cases n <;> exact hsource, hf⟩

end
end

/-- Settles O58: every move keeps the invariant, and a step is a move. -/
theorem stepKeepsInvariant : Obligations.StepKeepsInvariant := by
  unfold Obligations.StepKeepsInvariant
  exact fun s t hinv h => runMove_inv hinv.tick (runMove_of_step h).2

/-- Settles O60: a fault that is new after a step has its source in the step's move. -/
theorem faultSources : Obligations.FaultSources := by
  unfold Obligations.FaultSources
  intro s t hinv h
  have source {n : FaultName} (hn : n ∈ t.faults) (hn' : n ∉ s.faults) : s.MayRecord s.nextMove n := by
    rcases (step_keeps hinv h).faults with hf | ⟨k, hsource, hf⟩
    · exact absurd (hf ▸ hn) hn'
    · rw [hf, mem_addFault] at hn
      exact hn.resolve_right hn' ▸ hsource
  exact ⟨source, source, source, source⟩

end Sys2Proof.Machine
end

section
/-! PROOF. No agent is ever stuck (R163), and so the runs from reset are safe (R24, R157–R160). -/

namespace Sys2Proof.Machine

section
variable {s : State} (hinv : s.Inv)
include hinv

/-- The pointer of a running command stands at one of its steps. -/
theorem sequenceOf_answers {c : Cmd} (hc : s.cur = some c) : ∃ t, sequenceOf c s = .next t := by
  have hphase := hinv.command
  rw [hc] at hphase
  cases c with
  | claim =>
    have hn : s.sp ≤ 2 := hphase.1
    change ∃ t, claimStep s = .next t
    unfold claimStep
    split
    iterate 3 exact ⟨_, rfl⟩
    · grind
  | release =>
    have hn : s.sp ≤ 2 := hphase.1
    change ∃ t, releaseStep s = .next t
    unfold releaseStep
    split
    iterate 3 exact ⟨_, rfl⟩
    · grind
  | config =>
    have hn := configPhase_le hphase
    change ∃ t, configStep s = .next t
    unfold configStep
    split
    iterate 23 exact ⟨_, rfl⟩
    · grind
  | rdyq =>
    obtain ⟨hn, _⟩ := hphase
    simp [sequenceOf, rdyqStep, hn]
  | wrnb =>
    obtain ⟨hn, _⟩ := hphase
    simp [sequenceOf, wrnbStep, hn]
  | wrblk =>
    obtain ⟨_, hn | ⟨hn, _⟩⟩ := hphase
    · simp [sequenceOf, wrblkStep, hn]
    · simp [sequenceOf, wrblkStep, hn]

theorem exec_answers (i : Instr) : ∃ t, exec i s = .next t := by
  cases hi : cmdOf i with
  | some c =>
    rw [exec_mainline hi]
    rcases mainlineStep_cases i c (sequenceOf c) s with h | ⟨_, _, h⟩ | ⟨_, hc, h⟩
    · exact ⟨_, h⟩
    · exact ⟨_, h⟩
    · rw [h]
      exact sequenceOf_answers hinv hc
  | none =>
    obtain rfl : i = .rxisr := by cases i <;> first | rfl | cases hi
    exact rxisr_answers s

theorem State.Inv.withHostWords (ws : List Word40) : ({ s with hostWords := ws } : State).Inv :=
  ⟨hinv.pins, hinv.sync, hinv.command, hinv.isr, hinv.fragments, hinv.noInternalFault, hinv.faultsCanonical⟩

theorem hostMove_answers : ∃ t, hostMove s = .next t := by
  unfold hostMove
  split
  · split
    · exact ⟨_, rfl⟩
    · unfold present
      split
      · exact exec_answers (hinv.withHostWords _) _
      · exact ⟨_, rfl⟩
  · exact ⟨_, rfl⟩

theorem runMove_answers (m : Move) : ∃ t, runMove m s = .next t := by
  cases m with
  | host => exact hostMove_answers hinv
  | mainline =>
    cases hc : s.cur with
    | none => exact ⟨s, by simp only [runMove, mainlineMove, hc]⟩
    | some c => simpa only [runMove, mainlineMove, hc] using exec_answers hinv (s.runningInstr c)
  | isr => exact rxisr_answers s
  | engSyncEnable | engSyncCtrlb | engSwrstDone | engTx | line => exact ⟨_, rfl⟩

theorem step_answers (hf : s.params.sysClkHz ≠ 0) : ∃ t, step s = .next t := by
  rw [step_eq_runMove hf]
  exact runMove_answers hinv.tick _

/-- A run from a state with the invariant goes on and keeps it. -/
theorem run_answers (hf : s.params.sysClkHz ≠ 0) (k : Nat) : ∃ t, Host.Core.run Sys2Proof.core k s = .next t ∧ t.Inv := by
  induction k generalizing s with
  | zero => exact ⟨s, rfl, hinv⟩
  | succ k ih =>
    obtain ⟨u, hu⟩ := step_answers hinv hf
    obtain ⟨hparams, _⟩ := step_sameConstants hu
    obtain ⟨t, ht, htinv⟩ := ih (stepKeepsInvariant s u hinv hu) (by rwa [hparams])
    refine ⟨t, ?_, htinv⟩
    have hcore : Sys2Proof.core.step s = .next u := hu
    simpa only [Host.Core.run, hcore] using ht

end

/-- Settles O9: in every phase the pointer stands at a step of its command, and every other move answers by definition. -/
theorem everyStepAnswers : Obligations.EveryStepAnswers := by
  unfold Obligations.EveryStepAnswers
  exact ⟨fun s hf => by simp [step, hf], fun s hf hinv => step_answers hinv hf⟩

/-- Settles O59: the invariant holds at reset and along the run, and it says what a safe state is. -/
theorem runsFromResetAreSafe : Obligations.RunsFromResetAreSafe := by
  unfold Obligations.RunsFromResetAreSafe
  intro p ws bs ms k hf
  obtain ⟨t, ht, hinv⟩ := run_answers (invariantHoldsAtReset p ws bs ms) hf k
  exact ⟨t, ht, hinv.pins, hinv.noInternalFault⟩

end Sys2Proof.Machine
end

section
/-! PROOF. What a step of CONFIG writes (R22, R48, R102): where it goes, when it writes `seq` and the platform, what it
leaves alone, and what its register accesses touch of the engine and the log. -/

namespace Sys2Proof.Machine

section
variable {s t u : State}

theorem BusFrame.cur_eq (h : BusFrame s t) : t.cur = s.cur := by rw [h]
theorem BusFrame.sp_eq (h : BusFrame s t) : t.sp = s.sp := by rw [h]
theorem BusFrame.seq_eq (h : BusFrame s t) : t.seq = s.seq := by rw [h]
theorem BusFrame.plat_eq (h : BusFrame s t) : t.plat = s.plat := by rw [h]

/-! ## The UCB and the platform -/

/-- All that a step of CONFIG may change; of the datapath it keeps the fragments (R26, R172). -/
def ConfigFrame (s t : State) : Prop :=
  t = { s with
    cur := t.cur, sp := t.sp, seq := t.seq, active := t.active, rReg := t.rReg, cReg := t.cReg, eTmp := t.eTmp
    rsp := t.rsp, eng := t.eng, plat := t.plat, faults := t.faults, log := t.log, draws := t.draws
    dp := { s.dp with t3 := t.dp.t3, t2 := t.dp.t2, t1 := t.dp.t1, op1 := t.dp.op1, dReg := t.dp.dReg } }

theorem ConfigFrame.trans (h : ConfigFrame s t) (k : ConfigFrame t u) : ConfigFrame s u := by
  unfold ConfigFrame at *
  rw [k, h]

theorem BusFrame.configFrame (h : BusFrame s t) : ConfigFrame s t := by
  unfold ConfigFrame
  rw [h]

/-- Where a step of CONFIG goes: it waits, it goes on, it skips the disable (S1) or the pins (S7), or it answers (S22). -/
def ConfigFlow (s t : State) : Prop :=
  t.cur = s.cur ∧ (t.sp = s.sp ∨ t.sp = s.sp + 1 ∨ s.sp = 1 ∧ t.sp = 4 ∨ s.sp = 7 ∧ t.sp = 11) ∨
    s.sp = 22 ∧ t = s.complete false

/-- The steps of CONFIG that write `seq`, with the value each writes (R22). -/
def ConfigSeq (s t : State) : Prop :=
  t.seq = s.seq ∨ s.sp = 0 ∧ t.seq = .disabled ∨ s.sp = 4 ∧ t.seq = .resetting ∨ s.sp = 7 ∧ t.seq = .configuring ∨
    s.sp = 20 ∧ t.seq = .enabled

/-- The steps of CONFIG that call a capability, with what each changes (R48, R82). -/
def ConfigPlatform (s t : State) : Prop :=
  t.plat = s.plat ∨ s.sp = 8 ∧ t.plat = { s.plat with txPinFn := s.uartFn } ∨
    s.sp = 9 ∧ t.plat = { s.plat with rxPinFn := s.uartFn } ∨ s.sp = 11 ∧ t.plat = { s.plat with busClkOn := true } ∨
    s.sp = 12 ∧ t.plat = { s.plat with gclkRouted := true } ∨ s.sp = 19 ∧ t.plat = { s.plat with lineUnmasked := true }

structure ConfigEffect (s t : State) : Prop where
  flow : ConfigFlow s t
  seq : ConfigSeq s t
  plat : ConfigPlatform s t
  frame : ConfigFrame s t

theorem configFlow_next {n : Nat} (hc : u.cur = s.cur) (hn : s.sp = n) : ConfigFlow s (u.gotoStep (n + 1)) :=
  .inl ⟨hc, .inr (.inl (by simp [hn]))⟩

/-- A wait, which repeats its step or goes on. -/
theorem configFlow_wait {n k : Nat} (hc : u.cur = s.cur) (hn : s.sp = n) (hk : k = n ∨ k = n + 1) :
    ConfigFlow s (u.gotoStep k) :=
  .inl ⟨hc, hk.imp (fun h => by simp [h, hn]) fun h => .inl (by simp [h, hn])⟩

/-- A step that makes one register access. -/
theorem ConfigEffect.of_access {n : Nat} (h : BusFrame s u) (hn : s.sp = n) : ConfigEffect s (u.gotoStep (n + 1)) :=
  ⟨configFlow_next h.cur_eq hn, .inl h.seq_eq, .inl h.plat_eq, h.configFrame.trans (t := u) rfl⟩

theorem configS0_effect (hn : s.sp = 0) : ConfigEffect s (configS0 s) := by
  have h := busFrame_readEnable { s with seq := .disabled }
  exact ⟨configFlow_next h.cur_eq hn, .inr (.inl ⟨hn, h.seq_eq⟩), .inl h.plat_eq,
    (ConfigFrame.trans (t := { s with seq := .disabled }) rfl h.configFrame).trans rfl⟩

theorem configS1_effect (hn : s.sp = 1) : ConfigEffect s (configS1 s) := by
  refine ⟨.inl ⟨rfl, ?_⟩, .inl rfl, .inl rfl, rfl⟩
  cases he : s.eTmp with
  | true => exact .inr (.inl (by simp [configS1, he, hn]))
  | false => exact .inr (.inr (.inl ⟨hn, by simp [configS1, he]⟩))

theorem configS4_effect (hn : s.sp = 4) : ConfigEffect s (configS4 s) :=
  ⟨configFlow_wait rfl hn (ite_eq_or_eq _ _ _).symm, .inr (.inr (.inl ⟨hn, rfl⟩)), .inl rfl, rfl⟩

theorem configS7_effect (hn : s.sp = 7) : ConfigEffect s (configS7 s) := by
  refine ⟨.inl ⟨rfl, ?_⟩, .inr (.inr (.inr (.inl ⟨hn, rfl⟩))), .inl rfl, rfl⟩
  cases hc : s.cReg with
  | true => exact .inr (.inl (by simp [configS7, hc, hn]))
  | false => exact .inr (.inr (.inr ⟨hn, by simp [configS7, hc]⟩))

theorem configS14_effect (hn : s.sp = 14) : ConfigEffect s (configS14 s) := by
  refine ⟨configFlow_next rfl hn, .inl rfl, .inl rfl, ?_⟩
  have hdp : s.dividedDatapath = { s.dp with
      t3 := s.dividedDatapath.t3, t2 := s.dividedDatapath.t2, t1 := s.dividedDatapath.t1
      op1 := s.dividedDatapath.op1, dReg := s.dividedDatapath.dReg } := by
    cases hm : s.params.divisorMode with
    | fixedPoint => rw [dividedDatapath_fixedPoint hm]; rfl
    | referenceRound => rw [dividedDatapath_referenceRound hm]
  unfold ConfigFrame configS14 State.computeDivisor State.gotoStep
  simp only
  rw [← hdp]

theorem configS20_effect (hn : s.sp = 20) : ConfigEffect s (configS20 s) := by
  have h := busFrame_writeEnable { s with seq := .enabled } true
  exact ⟨configFlow_next h.cur_eq hn, .inr (.inr (.inr (.inr ⟨hn, h.seq_eq⟩))), .inl h.plat_eq,
    (ConfigFrame.trans (t := { s with seq := .enabled }) rfl h.configFrame).trans rfl⟩

theorem configStep_effect (h : configStep s = .next t) : ConfigEffect s t := by
  rcases configStep_cases h with ⟨hn, rfl⟩ | ⟨hn, rfl⟩ | ⟨hn, rfl⟩ | ⟨hn, rfl⟩ | ⟨hn, rfl⟩ | ⟨hn, rfl⟩ | ⟨hn, rfl⟩ |
    ⟨hn, rfl⟩ | ⟨hn, rfl⟩ | ⟨hn, rfl⟩ | ⟨hn, rfl⟩ | ⟨hn, rfl⟩ | ⟨hn, rfl⟩ | ⟨hn, rfl⟩ | ⟨hn, rfl⟩ | ⟨hn, rfl⟩ |
    ⟨hn, rfl⟩ | ⟨hn, rfl⟩ | ⟨hn, rfl⟩ | ⟨hn, rfl⟩ | ⟨hn, rfl⟩ | ⟨hn, rfl⟩ | ⟨hn, rfl⟩
  · exact configS0_effect hn
  · exact configS1_effect hn
  · exact ⟨configFlow_wait rfl hn (ite_eq_or_eq _ _ _).symm, .inl rfl, .inl rfl, rfl⟩
  · exact .of_access (busFrame_writeEnable s false) hn
  · exact configS4_effect hn
  · exact .of_access (busFrame_writeSwrst s true) hn
  · exact ⟨configFlow_wait rfl hn (ite_eq_or_eq _ _ _).symm, .inl rfl, .inl rfl, rfl⟩
  · exact configS7_effect hn
  · exact ⟨configFlow_next rfl hn, .inl rfl, .inr (.inl ⟨hn, rfl⟩), rfl⟩
  · exact ⟨configFlow_next rfl hn, .inl rfl, .inr (.inr (.inl ⟨hn, rfl⟩)), rfl⟩
  · exact ⟨configFlow_next rfl hn, .inl rfl, .inl rfl, rfl⟩
  · exact ⟨configFlow_next rfl hn, .inl rfl, .inr (.inr (.inr (.inl ⟨hn, rfl⟩))), rfl⟩
  · exact ⟨configFlow_next rfl hn, .inl rfl, .inr (.inr (.inr (.inr (.inl ⟨hn, rfl⟩)))), rfl⟩
  · exact .of_access (busFrame_writeCtrla s _) hn
  · exact configS14_effect hn
  · exact .of_access (busFrame_writeBaud s _) hn
  · exact .of_access (busFrame_writeCtrlb s _) hn
  · exact ⟨configFlow_wait rfl hn (ite_eq_or_eq _ _ _), .inl rfl, .inl rfl, rfl⟩
  · exact .of_access (busFrame_writeIntenset s true) hn
  · exact ⟨configFlow_next rfl hn, .inl rfl, .inr (.inr (.inr (.inr (.inr ⟨hn, rfl⟩)))), rfl⟩
  · exact configS20_effect hn
  · exact ⟨configFlow_wait rfl hn (ite_eq_or_eq _ _ _), .inl rfl, .inl rfl, rfl⟩
  · exact ⟨.inr ⟨hn, rfl⟩, .inl rfl, .inl rfl, rfl⟩

end
end Sys2Proof.Machine
end

section
/-! PROOF. The frames: what a step of the pin commands, of CONFIG (R98, R99, R102), of the byte exchange (R150) and of RXISR
(R142, R165, R166) leaves unchanged. -/

namespace Sys2Proof.Machine

section
variable {s t u : State}

/-! ## The register accesses of CONFIG -/

/-- What the accesses of a step of CONFIG leave alone of the engine: the received byte, its flag, the holding register, the
two applied values, and but for S18 `INTEN.RXC`. Of what they log nothing is a received or a delivered byte. -/
def ConfigAccess (s t : State) : Prop :=
  (t.eng.rxc = s.eng.rxc ∧ t.eng.rxData = s.eng.rxData ∧ t.eng.txHold = s.eng.txHold ∧
    t.eng.enableApplied = s.eng.enableApplied ∧ t.eng.ctrlb = s.eng.ctrlb) ∧
  (t.eng.intenRxc = s.eng.intenRxc ∨ s.sp = 18 ∧ t.eng.intenRxc = true) ∧
  ∃ es, t.log = s.log ++ es ∧ received es = [] ∧ delivered es = []

/-- The step `u` leaves the engine alone and logs one entry, of no received or delivered byte. -/
theorem ConfigAccess.of_entry {e : Event} (heng : u.eng = s.eng) (hlog : u.log = s.log ++ [e])
    (hr : received [e] = []) (hd : delivered [e] = []) : ConfigAccess s u := by
  unfold ConfigAccess
  rw [heng]
  exact ⟨⟨rfl, rfl, rfl, rfl, rfl⟩, .inl rfl, _, hlog, hr, hd⟩

/-- A step without a transaction or a capability. -/
theorem ConfigAccess.of_silent (heng : u.eng = s.eng) (hlog : u.log = s.log) : ConfigAccess s u := by
  unfold ConfigAccess
  rw [heng, hlog]
  exact ⟨⟨rfl, rfl, rfl, rfl, rfl⟩, .inl rfl, [], by simp, rfl, rfl⟩

theorem readEnable_configAccess (s : State) : ConfigAccess s s.readEnable.2 := by
  rcases readEnable_cases s with ⟨_, h⟩ | ⟨_, _, h⟩ | ⟨_, _, h⟩
  all_goals rw [h]; exact ⟨⟨rfl, rfl, rfl, rfl, rfl⟩, .inl rfl, _, rfl, rfl, rfl⟩

theorem writeEnable_configAccess (s : State) (v : Bool) : ConfigAccess s (s.writeEnable v) := by
  rcases writeEnable_cases s v with ⟨_, h⟩ | ⟨_, _, h⟩ | ⟨_, _, h⟩
  all_goals rw [h]; exact ⟨⟨rfl, rfl, rfl, rfl, rfl⟩, .inl rfl, _, rfl, rfl, rfl⟩

theorem writeSwrst_configAccess (s : State) : ConfigAccess s (s.writeSwrst true) := by
  rcases writeSwrst_cases s with ⟨_, h⟩ | ⟨_, _, h⟩ | ⟨_, _, h⟩
  all_goals rw [h]; exact ⟨⟨rfl, rfl, rfl, rfl, rfl⟩, .inl rfl, _, rfl, rfl, rfl⟩

theorem writeCtrla_plain_configAccess (s : State) (f : Ctrla) :
    ConfigAccess s (s.writeCtrla { fields := f, enable := false, swrst := false }) := by
  rcases writeCtrla_plain_cases s f with ⟨_, h, _⟩ | ⟨_, _, h⟩
  all_goals rw [h]; exact ⟨⟨rfl, rfl, rfl, rfl, rfl⟩, .inl rfl, _, rfl, rfl, rfl⟩

theorem writeBaud_configAccess (s : State) (d : BitVec 16) : ConfigAccess s (s.writeBaud d) := by
  rcases writeBaud_cases s d with ⟨_, h, _⟩ | ⟨_, _, h⟩
  all_goals rw [h]; exact ⟨⟨rfl, rfl, rfl, rfl, rfl⟩, .inl rfl, _, rfl, rfl, rfl⟩

theorem writeCtrlb_configAccess (s : State) (c : Ctrlb) : ConfigAccess s (s.writeCtrlb c) := by
  rcases writeCtrlb_cases s c with ⟨_, h, _⟩ | ⟨_, _, _, h⟩
  all_goals rw [h]; exact ⟨⟨rfl, rfl, rfl, rfl, rfl⟩, .inl rfl, _, rfl, rfl, rfl⟩

/-- The write of S18, which arms the interrupt. -/
theorem writeIntenset_configAccess (hn : s.sp = 18) : ConfigAccess s (s.writeIntenset true) := by
  rcases writeIntenset_cases s true with ⟨_, h⟩ | ⟨_, h⟩
  · rw [h]
    exact ⟨⟨rfl, rfl, rfl, rfl, rfl⟩, .inl rfl, _, rfl, rfl, rfl⟩
  · rw [h]
    exact ⟨⟨rfl, rfl, rfl, rfl, rfl⟩, .inr ⟨hn, Bool.or_true _⟩, _, rfl, rfl, rfl⟩

theorem configStep_access (h : configStep s = .next t) : ConfigAccess s t := by
  rcases configStep_cases h with ⟨_, rfl⟩ | ⟨_, rfl⟩ | ⟨_, rfl⟩ | ⟨_, rfl⟩ | ⟨_, rfl⟩ | ⟨_, rfl⟩ | ⟨_, rfl⟩ | ⟨_, rfl⟩ |
    ⟨_, rfl⟩ | ⟨_, rfl⟩ | ⟨_, rfl⟩ | ⟨_, rfl⟩ | ⟨_, rfl⟩ | ⟨_, rfl⟩ | ⟨_, rfl⟩ | ⟨_, rfl⟩ | ⟨_, rfl⟩ | ⟨_, rfl⟩ |
    ⟨hn, rfl⟩ | ⟨_, rfl⟩ | ⟨_, rfl⟩ | ⟨_, rfl⟩ | ⟨_, rfl⟩
  -- S0 to S22 in order: what is no register access is silent or makes one entry.
  exacts [readEnable_configAccess { s with seq := .disabled }, .of_silent rfl rfl, .of_entry rfl rfl rfl rfl,
    writeEnable_configAccess s false, .of_entry rfl rfl rfl rfl, writeSwrst_configAccess s, .of_entry rfl rfl rfl rfl,
    .of_silent rfl rfl, .of_entry rfl rfl rfl rfl, .of_entry rfl rfl rfl rfl, .of_silent rfl rfl,
    .of_entry rfl rfl rfl rfl, .of_entry rfl rfl rfl rfl, writeCtrla_plain_configAccess s _, .of_silent rfl rfl,
    writeBaud_configAccess s _, writeCtrlb_configAccess s _, .of_entry rfl rfl rfl rfl, writeIntenset_configAccess hn,
    .of_entry rfl rfl rfl rfl, writeEnable_configAccess { s with seq := .enabled } true, .of_entry rfl rfl rfl rfl,
    .of_entry rfl rfl rfl rfl]

/-! ## The frames of the commands -/

/-- All that a step of CLAIM or RELEASE may change. -/
def PinFrame (s t : State) : Prop :=
  t = { s with
    cur := t.cur, sp := t.sp, active := t.active, rsp := t.rsp, log := t.log
    plat := { s.plat with txPinFn := t.plat.txPinFn, rxPinFn := t.plat.rxPinFn } }

theorem claimStep_frame (h : claimStep s = .next t) : PinFrame s t := by
  rcases claimStep_cases h with ⟨_, rfl⟩ | ⟨_, rfl⟩ | ⟨_, rfl⟩
  all_goals rfl

theorem releaseStep_frame (h : releaseStep s = .next t) : PinFrame s t := by
  rcases releaseStep_cases h with ⟨_, rfl⟩ | ⟨_, rfl⟩ | ⟨_, rfl⟩
  all_goals rfl

/-- All that a step of the byte exchange may change (R150). -/
def ByteFrame (s t : State) : Prop :=
  t = { s with
    cur := t.cur, sp := t.sp, bReg := t.bReg, qTmp := t.qTmp, rsp := t.rsp, faults := t.faults, log := t.log
    draws := t.draws, eng := { s.eng with txHold := t.eng.txHold } }

theorem rdyqStep_frame (h : rdyqStep s = .next t) : ByteFrame s t ∧ t.bReg = s.bReg ∧ t.eng = s.eng := by
  obtain ⟨_, rfl⟩ := rdyqStep_cases h
  rcases readDre_cases s with ⟨_, h⟩ | ⟨_, _, h⟩ | ⟨_, _, h⟩
  all_goals rw [h]; exact ⟨rfl, rfl, rfl⟩

theorem writeData_complete_frame (s : State) : ByteFrame s ((s.writeData s.bReg).complete false) := by
  rcases writeData_cases s s.bReg with ⟨_, h, _⟩ | ⟨_, _, _, h⟩
  all_goals rw [h]; rfl

theorem wrnbStep_frame (h : wrnbStep s = .next t) : ByteFrame s t := by
  obtain ⟨_, rfl⟩ := wrnbStep_cases h
  exact writeData_complete_frame s

theorem wrblkStep_frame (h : wrblkStep s = .next t) : ByteFrame s t := by
  rcases wrblkStep_cases h with ⟨_, rfl⟩ | ⟨_, rfl⟩
  · rcases readDre_cases s with ⟨_, h⟩ | ⟨_, _, h⟩ | ⟨_, _, h⟩
    all_goals rw [h]; rfl
  · exact writeData_complete_frame s

/-- All that a step of RXISR may change (R165, R166). -/
def IsrFrame (s t : State) : Prop :=
  t = { s with
    isrSp := t.isrSp, isrF := t.isrF, isrByte := t.isrByte, eng := { s.eng with rxc := t.eng.rxc }
    faults := t.faults, log := t.log, draws := t.draws, hostState := t.hostState }

theorem rxisrI0_frame (s : State) : IsrFrame s (rxisrI0 s) ∧ (rxisrI0 s).hostState = s.hostState := by
  unfold rxisrI0
  simp only
  rcases readRxc_cases s with ⟨_, h⟩ | ⟨_, h⟩
  all_goals rw [h]; split <;> exact ⟨rfl, rfl⟩

theorem rxisrI1_frame (s : State) : IsrFrame s (rxisrI1 s) ∧ (rxisrI1 s).hostState = s.hostState := by
  unfold rxisrI1
  rcases readData_cases s with ⟨_, _, h⟩ | ⟨_, _, h⟩
  all_goals rw [h]; exact ⟨rfl, rfl⟩

theorem rxisr_frame (h : exec .rxisr s = .next t) :
    IsrFrame s t ∧ (t.hostState = s.hostState ∨
      s.isrSp = some .i2 ∧ t.hostState = invokeCallback s.params.callback s.isrByte s.hostState) := by
  rcases rxisr_cases h with ⟨_, _, rfl⟩ | ⟨_, _, rfl⟩ | ⟨_, rfl⟩ | ⟨_, rfl⟩ | ⟨hat, rfl⟩
  · exact ⟨rfl, .inl rfl⟩
  · exact ⟨rfl, .inl rfl⟩
  · exact (rxisrI0_frame s).imp_right .inl
  · exact (rxisrI1_frame s).imp_right .inl
  · exact ⟨rfl, .inr ⟨hat, rfl⟩⟩

end

/-- Settles O48: the acceptance is within both frames, and so is each numbered step. -/
theorem pinAndConfigFrames : Obligations.PinAndConfigFrames := by
  unfold Obligations.PinAndConfigFrames
  refine ⟨fun s t i hi h => ?_, fun s t c r h => ?_⟩
  · rcases hi with rfl | rfl
    · rcases exec_cases rfl h with rfl | ⟨_, _, rfl⟩ | ⟨_, _, h⟩
      exacts [rfl, rfl, claimStep_frame h]
    · rcases exec_cases rfl h with rfl | ⟨_, _, rfl⟩ | ⟨_, _, h⟩
      exacts [rfl, rfl, releaseStep_frame h]
  · rcases exec_cases rfl h with rfl | ⟨_, _, rfl⟩ | ⟨_, _, h⟩
    · exact ⟨rfl, rfl, rfl, rfl, rfl, rfl⟩
    · exact ⟨rfl, rfl, rfl, rfl, rfl, rfl⟩
    · exact ⟨(configStep_effect h).frame, (configStep_access h).1⟩

/-- Settles O49: the acceptance latches the byte, and each numbered step is one DRE read or one `DATA` write. -/
theorem byteExchangeFrame : Obligations.ByteExchangeFrame := by
  unfold Obligations.ByteExchangeFrame
  rintro s t i b (rfl | rfl | rfl) h
  · rcases exec_cases rfl h with rfl | ⟨_, _, rfl⟩ | ⟨_, _, h⟩
    · exact ⟨rfl, fun _ => ⟨rfl, rfl⟩⟩
    · exact ⟨rfl, fun _ => ⟨rfl, rfl⟩⟩
    · exact (rdyqStep_frame h).imp_right fun h _ => h
  · rcases exec_cases rfl h with rfl | ⟨_, _, rfl⟩ | ⟨_, _, h⟩
    exacts [⟨rfl, nofun⟩, ⟨rfl, nofun⟩, ⟨wrnbStep_frame h, nofun⟩]
  · rcases exec_cases rfl h with rfl | ⟨_, _, rfl⟩ | ⟨_, _, h⟩
    exacts [⟨rfl, nofun⟩, ⟨rfl, nofun⟩, ⟨wrblkStep_frame h, nofun⟩]

/-- Settles O50: I0 and I1 write the ISR's state and the flag, and only I2 invokes the callback. -/
theorem rxisrFrame : Obligations.RxisrFrame := by
  unfold Obligations.RxisrFrame
  intro s t h
  obtain ⟨hframe, hhost⟩ := rxisr_frame h
  refine ⟨hframe, fun hx => ?_, fun hat => ?_, fun hquiet => ?_⟩
  · rcases rxisr_rxc h with hsame | ⟨_, hlow⟩
    · rwa [hsame] at hx
    · simp [hlow] at hx
  · cases (exec_rxisr_i2 hat).symm.trans h
    rfl
  · rcases hhost with hsame | ⟨hat, hcall⟩
    · exact hsame
    · rw [hcall, hquiet.resolve_left (not_not_intro hat), invokeCallback_noop]

end Sys2Proof.Machine
end

section
/-! PROOF. Who writes what: while a command runs only the mainline agent touches its state, so the pointer (R20), `seq` (R22),
the platform and `INTEN.RXC` (R41, R48, R101) and the end of a CONFIG (R107, R120, R121) are matters of its numbered steps. -/

namespace Sys2Proof.Machine

section
variable {s t : State} {m : Move}

/-! ## The moves of the other agents -/

/-- `t` has what the mainline agent and the capabilities own of `s`, and `INTEN.RXC`, which no other agent raises. -/
structure SameUnit (s t : State) : Prop where
  cur : t.cur = s.cur
  sp : t.sp = s.sp
  seq : t.seq = s.seq
  plat : t.plat = s.plat

theorem BusFrame.sameUnit (h : BusFrame s t) : SameUnit s t := ⟨h.cur_eq, h.sp_eq, h.seq_eq, h.plat_eq⟩

theorem rxisr_sameUnit (h : exec .rxisr s = .next t) : SameUnit s t := by
  obtain ⟨hframe, _⟩ := rxisr_frame h
  constructor <;> rw [hframe]

/-- A numbered step, an acceptance on an idle port, or a move that leaves the mainline's state alone. -/
theorem runMove_unit (h : runMove m s = .next t) :
    (m = .mainline ∧ s.isrSp = none ∧ ∃ c, s.cur = some c ∧ sequenceOf c s = .next t) ∨
    (s.cur = none ∧ t.seq = s.seq ∧ t.plat = s.plat ∧ t.eng = s.eng ∧ (t.cur = none ∨ t.sp = 0)) ∨
    SameUnit s t ∧ (t.eng.intenRxc = s.eng.intenRxc ∨
      t.eng.intenRxc = false ∧ m = .engSwrstDone ∧ s.eng.swrstPending = true) := by
  rcases runMove_cases h with rfl | ⟨_, hidle, w, rest, i, c, _, _, _, rfl⟩ | ⟨_, hidle, w, rest, e, _, _, rfl⟩ | hmain |
    ⟨_, hisr⟩ | ⟨_, rfl⟩ | ⟨_, rfl⟩ | ⟨hm, rfl⟩ | ⟨_, rfl⟩ | ⟨_, rfl⟩
  · exact .inr (.inr ⟨⟨rfl, rfl, rfl, rfl⟩, .inl rfl⟩)
  · exact .inr (.inl ⟨hidle.1, accept_seq _ i c, accept_plat _ i c, accept_eng _ i c, .inr rfl⟩)
  · exact .inr (.inl ⟨hidle.1, rfl, rfl, rfl, .inl hidle.1⟩)
  · exact .inl hmain
  · refine .inr (.inr ⟨rxisr_sameUnit hisr, .inl ?_⟩)
    rw [(rxisr_frame hisr).1]
  · refine .inr (.inr ⟨(busFrame_engSyncEnable s).sameUnit, .inl ?_⟩)
    rcases engSyncEnable_cases s with ⟨_, h⟩ | ⟨_, _, _, h⟩ | ⟨_, _, _, h⟩
    all_goals rw [h]
  · refine .inr (.inr ⟨(busFrame_engSyncCtrlb s).sameUnit, .inl ?_⟩)
    rcases engSyncCtrlb_cases s with ⟨_, h⟩ | ⟨_, _, h⟩
    all_goals rw [h]
  · refine .inr (.inr ⟨(busFrame_engSwrstDone s).sameUnit, ?_⟩)
    rcases engSwrstDone_cases s with ⟨_, h⟩ | ⟨hr, h⟩
    · exact .inl (by rw [h])
    · exact .inr ⟨by rw [h]; rfl, hm, hr⟩
  · refine .inr (.inr ⟨(busFrame_engTx s).sameUnit, .inl ?_⟩)
    rcases engTx_cases s with ⟨_, h⟩ | ⟨_, _, _, h⟩
    all_goals rw [h]
  · refine .inr (.inr ⟨by constructor <;> rw [lineStep_frame], .inl ?_⟩)
    rcases lineStep_cases s with ⟨_, h⟩ | ⟨_, _, _, _, ⟨_, h⟩ | ⟨_, h⟩⟩
    all_goals rw [h]

/-- While a command runs, a move is its numbered step or leaves it where it is. -/
theorem runMove_running {c : Cmd} (hc : s.cur = some c) (h : runMove m s = .next t) :
    (m = .mainline ∧ s.isrSp = none ∧ sequenceOf c s = .next t) ∨ SameUnit s t := by
  rcases runMove_unit h with ⟨hm, hi, d, hd, hseq⟩ | ⟨hnone, _⟩ | ⟨hsame, _⟩
  · obtain rfl : c = d := by simpa [hc] using hd
    exact .inl ⟨hm, hi, hseq⟩
  · simp [hc] at hnone
  · exact .inr hsame

/-! ## The pointer (R20) -/

theorem sequenceOf_sp_le {c : Cmd} (h : sequenceOf c s = .next t) : s.sp ≤ t.sp := by
  cases c with
  | claim => rcases claimStep_cases h with ⟨hn, rfl⟩ | ⟨hn, rfl⟩ | ⟨hn, rfl⟩ <;> simp [hn]
  | release => rcases releaseStep_cases h with ⟨hn, rfl⟩ | ⟨hn, rfl⟩ | ⟨hn, rfl⟩ <;> simp [hn]
  | config =>
    rcases (configStep_effect h).flow with ⟨_, hgo⟩ | ⟨hn, rfl⟩
    · omega
    · exact le_rfl
  | rdyq =>
    obtain ⟨hn, _⟩ := rdyqStep_cases h
    exact hn ▸ Nat.zero_le _
  | wrnb =>
    obtain ⟨hn, _⟩ := wrnbStep_cases h
    exact hn ▸ Nat.zero_le _
  | wrblk =>
    rcases wrblkStep_cases h with ⟨hn, _⟩ | ⟨_, rfl⟩
    · exact hn ▸ Nat.zero_le _
    · exact (busFrame_writeData s _).sp_eq.ge

theorem commandPhase_le {c : Cmd} {n : Nat} (h : s.commandPhase (some c) n) : n ≤ 22 := by
  cases c with
  | claim => exact h.1.trans (by decide)
  | release => exact h.1.trans (by decide)
  | config => exact configPhase_le h
  | rdyq => exact h.1.trans_le (by decide)
  | wrnb => exact h.1.trans_le (by decide)
  | wrblk => exact h.2.elim (fun hn => hn.trans_le (by decide)) fun ⟨hn, _⟩ => hn.trans_le (by decide)

end

/-- Settles O8: no numbered step lowers the pointer, no other agent moves it while a command runs, and the phase of the
state reached bounds it. -/
theorem sequencePointerNeverDecreases : Obligations.SequencePointerNeverDecreases := by
  unfold Obligations.SequencePointerNeverDecreases
  refine fun s t c h => ⟨fun hc _ => ?_, fun hinv hc => ?_⟩
  · rcases runMove_running (s := s.tick) hc (runMove_of_step h).2 with ⟨_, _, hseq⟩ | hsame
    · exact sequenceOf_sp_le (s := s.tick) hseq
    · exact hsame.sp.ge
  · have hphase := (stepKeepsInvariant s t hinv h).command
    rw [hc] at hphase
    exact commandPhase_le hphase

section
variable {s t : State} {m : Move}

/-! ## `seq` (R22) and the platform (R41, R48, R101) -/

theorem PinFrame.seq_eq (h : PinFrame s t) : t.seq = s.seq := by rw [h]
theorem PinFrame.eng_eq (h : PinFrame s t) : t.eng = s.eng := by rw [h]
theorem ByteFrame.seq_eq (h : ByteFrame s t) : t.seq = s.seq := by rw [h]
theorem ByteFrame.plat_eq (h : ByteFrame s t) : t.plat = s.plat := by rw [h]
theorem ByteFrame.intenRxc_eq (h : ByteFrame s t) : t.eng.intenRxc = s.eng.intenRxc := by rw [h]

theorem sequenceOf_seq {c : Cmd} (h : sequenceOf c s = .next t) : t.seq = s.seq ∨ c = .config ∧ ConfigSeq s t := by
  cases c with
  | claim => exact .inl (claimStep_frame h).seq_eq
  | release => exact .inl (releaseStep_frame h).seq_eq
  | config => exact .inr ⟨rfl, (configStep_effect h).seq⟩
  | rdyq => exact .inl (rdyqStep_frame h).1.seq_eq
  | wrnb => exact .inl (wrnbStep_frame h).seq_eq
  | wrblk => exact .inl (wrblkStep_frame h).seq_eq

/-- The steps of CLAIM and RELEASE that route a pin. -/
def PinWrite (c : Cmd) (s t : State) : Prop :=
  (c = .claim ∧ s.sp = 0 ∨ c = .release ∧ s.sp = 1) ∧ (∃ fn, t.plat = { s.plat with txPinFn := fn }) ∨
    (c = .claim ∧ s.sp = 1 ∨ c = .release ∧ s.sp = 2) ∧ ∃ fn, t.plat = { s.plat with rxPinFn := fn }

theorem sequenceOf_plat {c : Cmd} (h : sequenceOf c s = .next t) :
    t.plat = s.plat ∨ PinWrite c s t ∨ c = .config ∧ ConfigPlatform s t := by
  cases c with
  | claim =>
    rcases claimStep_cases h with ⟨hn, rfl⟩ | ⟨hn, rfl⟩ | ⟨_, rfl⟩
    · exact .inr (.inl (.inl ⟨.inl ⟨rfl, hn⟩, _, rfl⟩))
    · exact .inr (.inl (.inr ⟨.inl ⟨rfl, hn⟩, _, rfl⟩))
    · exact .inl rfl
  | release =>
    rcases releaseStep_cases h with ⟨_, rfl⟩ | ⟨hn, rfl⟩ | ⟨hn, rfl⟩
    · exact .inl rfl
    · exact .inr (.inl (.inl ⟨.inr ⟨rfl, hn⟩, _, rfl⟩))
    · exact .inr (.inl (.inr ⟨.inr ⟨rfl, hn⟩, _, rfl⟩))
  | config => exact .inr (.inr ⟨rfl, (configStep_effect h).plat⟩)
  | rdyq => exact .inl (rdyqStep_frame h).1.plat_eq
  | wrnb => exact .inl (wrnbStep_frame h).plat_eq
  | wrblk => exact .inl (wrblkStep_frame h).plat_eq

theorem sequenceOf_intenRxc {c : Cmd} (h : sequenceOf c s = .next t) :
    t.eng.intenRxc = s.eng.intenRxc ∨ c = .config ∧ s.sp = 18 ∧ t.eng.intenRxc = true := by
  cases c with
  | claim => exact .inl (by rw [(claimStep_frame h).eng_eq])
  | release => exact .inl (by rw [(releaseStep_frame h).eng_eq])
  | config => exact (configStep_access h).2.1.imp_right fun h => ⟨rfl, h⟩
  | rdyq => exact .inl (rdyqStep_frame h).1.intenRxc_eq
  | wrnb => exact .inl (wrnbStep_frame h).intenRxc_eq
  | wrblk => exact .inl (wrblkStep_frame h).intenRxc_eq

/-- Each part of the platform by the steps that change it. -/
theorem sequenceOf_platform {c : Cmd} (hi : s.isrSp = none) (hc : s.cur = some c) (h : sequenceOf c s = .next t) :
    (t.plat.txPinFn ≠ s.plat.txPinFn → s.standsAt .claim 0 ∨ s.standsAt .release 1 ∨ s.standsAt .config 8) ∧
    (t.plat.rxPinFn ≠ s.plat.rxPinFn → s.standsAt .claim 1 ∨ s.standsAt .release 2 ∨ s.standsAt .config 9) ∧
    (t.plat.busClkOn ≠ s.plat.busClkOn → t.plat.busClkOn = true ∧ s.standsAt .config 11) ∧
    (t.plat.gclkRouted ≠ s.plat.gclkRouted → t.plat.gclkRouted = true ∧ s.standsAt .config 12) ∧
    (t.plat.lineUnmasked ≠ s.plat.lineUnmasked → t.plat.lineUnmasked = true ∧ s.standsAt .config 19) := by
  rcases sequenceOf_plat h with hp | (⟨⟨rfl, hn⟩ | ⟨rfl, hn⟩, _, hp⟩ | ⟨⟨rfl, hn⟩ | ⟨rfl, hn⟩, _, hp⟩) |
    ⟨rfl, hp | ⟨hn, hp⟩ | ⟨hn, hp⟩ | ⟨hn, hp⟩ | ⟨hn, hp⟩ | ⟨hn, hp⟩⟩
  · simp [hp]
  iterate 4 simp [hp, State.standsAt, hi, hc, hn]
  · simp [hp]
  all_goals simp [hp, State.standsAt, hi, hc, hn]

end

/-- Settles O28: only CONFIG's numbered steps write `seq`, and they are the four stated. -/
theorem seqWrittenOnlyByConfig : Obligations.SeqWrittenOnlyByConfig := by
  unfold Obligations.SeqWrittenOnlyByConfig
  intro s t h hne
  rcases runMove_unit (s := s.tick) (runMove_of_step h).2 with ⟨hm, hi, c, hc, hseq⟩ | ⟨_, hsame, _⟩ | ⟨hsame, _⟩
  · obtain ⟨rfl, hwrite⟩ := (sequenceOf_seq hseq).resolve_left hne
    refine ⟨hm, ?_⟩
    rcases hwrite.resolve_left hne with ⟨hn, hval⟩ | ⟨hn, hval⟩ | ⟨hn, hval⟩ | ⟨hn, hval⟩
    · exact .inl ⟨⟨hi, hc, hn⟩, hval⟩
    · exact .inr (.inl ⟨⟨hi, hc, hn⟩, hval⟩)
    · exact .inr (.inr (.inl ⟨⟨hi, hc, hn⟩, hval⟩))
    · exact .inr (.inr (.inr ⟨⟨hi, hc, hn⟩, hval⟩))
  · exact absurd hsame hne
  · exact absurd hsame.seq hne

/-- Settles O19: of the numbered steps the stated ones call a capability or arm the interrupt, and of the other moves only
the completion of an engine reset clears `INTEN.RXC`. -/
theorem platformWriters : Obligations.PlatformWriters := by
  unfold Obligations.PlatformWriters
  intro s t h
  rcases runMove_unit (s := s.tick) (runMove_of_step h).2 with ⟨hm, hi, c, hc, hseq⟩ | ⟨_, _, hplat, heng, _⟩ |
    ⟨hsame, hirq⟩
  · obtain ⟨htx, hrx, hbus, hgclk, hline⟩ := sequenceOf_platform hi hc hseq
    refine ⟨fun hne => ⟨hm, htx hne⟩, fun hne => ⟨hm, hrx hne⟩, fun hne => (hbus hne).imp_right fun h => ⟨hm, h⟩,
      fun hne => (hgclk hne).imp_right fun h => ⟨hm, h⟩, fun hne => (hline hne).imp_right fun h => ⟨hm, h⟩,
      fun hne => ?_⟩
    obtain ⟨rfl, hn, hset⟩ := (sequenceOf_intenRxc hseq).resolve_left hne
    exact .inl ⟨hset, hm, hi, hc, hn⟩
  · have hplat : t.plat = s.plat := hplat
    have heng : t.eng = s.eng := heng
    simp [hplat, heng]
  · have hplat : t.plat = s.plat := hsame.plat
    simp only [hplat, ne_eq, not_true_eq_false, false_implies, true_and]
    exact fun hne => .inr (hirq.resolve_left hne)

section
variable {s t : State}

/-! ## Where a CONFIG ends, and its reset trigger (R107, R120, R121) -/

/-- The move that ends a CONFIG is S22. -/
theorem config_ends {m : Move} (hc : s.cur = some .config) (h : runMove m s = .next t) (hend : t.cur = none) :
    s.sp = 22 ∧ t = s.complete false := by
  rcases runMove_running hc h with ⟨_, _, hseq⟩ | hsame
  · rcases (configStep_effect hseq).flow with ⟨hcur, _⟩ | hlast
    · rw [hend, hc] at hcur
      cases hcur
    · exact hlast
  · have := hsame.cur
    rw [hend, hc] at this
    cases this

/-- A CONFIG at S22 has a live engine with room in `tx_hold`. -/
theorem State.Inv.live_of_config_end (hinv : s.Inv) (hc : s.cur = some .config) (hn : s.sp = 22) :
    s.Programmed ∧ s.seq = .enabled ∧ s.Routed ∧ s.Controlled ∧ s.eng.intenRxc = true ∧ s.plat.lineUnmasked = true ∧
      s.eng.pendEnable = none ∧ s.eng.enableApplied = true := hinv.configPhase hc hn
end

/-- Settles O26: only S22 ends a CONFIG, and the phase of S22 says that the engine is live. -/
theorem configAnswersWhenLive : Obligations.ConfigAnswersWhenLive := by
  unfold Obligations.ConfigAnswersWhenLive
  intro s t hinv h hc hend
  obtain ⟨hn, rfl⟩ := config_ends (s := s.tick) hc (runMove_of_step h).2 hend
  obtain ⟨⟨_, hbaud, hr, hempty⟩, hseq, ⟨hactive, _⟩, ⟨_, hctrlb⟩, hirq, hline, hp, he⟩ :=
    hinv.live_of_config_end hc hn
  have hsync := hinv.syncEnable_eq_false hp
  have txen : s.eng.ctrlb.txen = true := by rw [hctrlb]; rfl
  have rxen : s.eng.ctrlb.rxen = true := by rw [hctrlb]; rfl
  have hdre : (s.tick.complete false).readDre.1 = true := by
    rw [readDre_on (s := s.tick.complete false) hr ((transmitterOn_iff _).mpr ⟨he, hsync, txen⟩)]
    simp [hempty]
  exact ⟨rfl, rfl, rfl, hseq, he, hsync, hp, txen, rxen, hbaud, hirq, hline, hempty, hdre,
    fun hReg => ⟨hactive hReg, hinv.pins (hactive hReg)⟩⟩

/-- Settles O27: the only way from S5 or before to a step after it is S5 itself, whose write is legal in its phase. -/
theorem resetTriggerNeverSkipped : Obligations.ResetTriggerNeverSkipped := by
  unfold Obligations.ResetTriggerNeverSkipped
  intro s t hinv h hc hle
  rcases runMove_running (s := s.tick) hc (runMove_of_step h).2 with ⟨_, _, hseq⟩ | hsame
  · rcases (configStep_effect hseq).flow with ⟨hcur, hgo⟩ | ⟨hn, _⟩
    · refine ⟨hcur.trans hc, ?_⟩
      by_cases hn : s.sp = 5
      · obtain ⟨⟨⟨hp, _, hr⟩, _⟩, _⟩ : s.Off ∧ s.seq = .resetting := hinv.configPhase hc hn
        have hstep : configStep s.tick = .next (configS5 s.tick) := by simp [configStep, hn]
        rw [configS5_legal (s := s.tick) hr (hinv.syncEnable_eq_false hp)] at hstep
        cases hstep.symm.trans hseq
        exact .inr ⟨hn, rfl, rfl, rfl⟩
      · simp only [tick_sp] at hgo
        omega
    · simp only [tick_sp] at hn
      omega
  · exact ⟨hsame.cur.trans hc, .inl (hsame.sp.trans_le hle)⟩

end Sys2Proof.Machine
end

section
/-! PROOF. The decoder and the encoder undo each other (R84–R88, R92). -/

namespace Sys2Proof

/-! ## Decoding an encoded command -/

/-- The mainline decoder's table, on the fields of a word with `Z = 0` (R86, R92). -/
def decodeFields (data : BitVec 32) (c : Bool) (op : BitVec 4) : Except IllegalWord Instr :=
  match op.toNat with
  | 1 => decodeBare c data .claim
  | 2 => decodeBare c data .release
  | 3 => .ok (.config c data)
  | 4 => decodeBare c data .rdyq
  | 5 => decodeByte c data .wrnb
  | 6 => decodeByte c data .wrblk
  | 7 => .error .rxisrOnMainline
  | _ => .error .reservedOp

theorem decodeMainline_cmd40 (data : BitVec 32) (c : Bool) (op : BitVec 4) :
    decodeMainline (cmd40 data c op) = decodeFields data c op := by
  obtain ⟨hz, hop, hc, hdata⟩ := Laws.FormatFields.cmd40_fields data c op
  rw [decodeMainline, hz, hop, hc, hdata, if_neg (not_not_intro rfl)]
  rfl

/-- The low byte of a byte operand is the byte, and the 24 bits above it are 0. -/
theorem decodeByte_setWidth (b : Byte) (mk : Byte → Instr) : decodeByte false (b.setWidth 32) mk = .ok (mk b) := by
  have hb : b.toNat < 2 ^ 8 := b.isLt
  have hlow : (b.setWidth 32).extractLsb' 0 8 = b := by
    apply BitVec.eq_of_toNat_eq
    simpa using hb
  have hhigh : (b.setWidth 32).extractLsb' 8 24 = 0#24 := by
    apply BitVec.eq_of_toNat_eq
    simp [BitVec.extractLsb'_toNat, Nat.shiftRight_eq_div_pow]
    omega
  simp [decodeByte, hlow, hhigh]

theorem decode_encode (i : Instr) : decode i.port (encode i) = .ok i := by
  cases i with
  | claim => decide
  | release => decide
  | config c r => exact decodeMainline_cmd40 r c 0x3
  | rdyq => decide
  | wrnb b => exact (decodeMainline_cmd40 _ false 0x5).trans (decodeByte_setWidth b .wrnb)
  | wrblk b => exact (decodeMainline_cmd40 _ false 0x6).trans (decodeByte_setWidth b .wrblk)
  | rxisr => decide

/-- Settles O1: the fields of an encoded word are the ones it was put together from, and its port is the command's. -/
theorem decodeUndoesEncode : Obligations.DecodeUndoesEncode := by
  unfold Obligations.DecodeUndoesEncode
  intro p i hwf
  obtain rfl : i.port = p := by simpa [Instr.wellFormedOn] using hwf
  exact decode_encode i

/-! ## Encoding a decoded command -/

/-- A word with `Z = 0` is its other fields put together. -/
theorem eq_cmd40 {w : Word40} (hz : zField w = 0) : w = cmd40 (dataField w) (cField w) (opField w) := by
  have hz : w.toNat / 2 ^ 5 % 2 ^ 3 = 0 := by
    have := congrArg BitVec.toNat hz
    simpa [zField, BitVec.extractLsb'_toNat, Nat.shiftRight_eq_div_pow] using this
  have hc : (cField w).toNat = w.toNat / 2 ^ 4 % 2 := by
    rw [cField, BitVec.getLsbD, Nat.testBit_eq_decide_div_mod_eq]
    rcases Nat.mod_two_eq_zero_or_one (w.toNat / 2 ^ 4) with h | h
    · rw [h]; decide
    · rw [h]; decide
  have hw : w.toNat < 2 ^ 40 := w.isLt
  apply BitVec.eq_of_toNat_eq
  rw [Laws.FormatFields.cmd40_toNat, hc, opField_toNat]
  simp only [dataField, Word40.field, BitVec.extractLsb'_toNat, Nat.shiftRight_eq_div_pow]
  omega

theorem decodeBare_eq_ok {c : Bool} {data : BitVec 32} {i j : Instr} (h : decodeBare c data i = .ok j) :
    c = false ∧ data = 0 ∧ j = i := by
  obtain ⟨rfl, rfl⟩ := (decodeBare_ok_iff c data i).mp ⟨j, h⟩
  cases h
  exact ⟨rfl, rfl, rfl⟩

theorem decodeByte_eq_ok {c : Bool} {data : BitVec 32} {mk : Byte → Instr} {j : Instr} (h : decodeByte c data mk = .ok j) :
    c = false ∧ ∃ b : Byte, data = b.setWidth 32 ∧ j = mk b := by
  obtain ⟨rfl, hhigh⟩ := (decodeByte_ok_iff c data mk).mp ⟨j, h⟩
  refine ⟨rfl, data.extractLsb' 0 8, ?_, ?_⟩
  · have hhigh := congrArg BitVec.toNat hhigh
    simp only [BitVec.extractLsb'_toNat, Nat.shiftRight_eq_div_pow] at hhigh
    have h0 : (0 : BitVec 24).toNat = 0 := rfl
    have hd : data.toNat < 2 ^ 32 := data.isLt
    apply BitVec.eq_of_toNat_eq
    simp only [BitVec.toNat_setWidth, BitVec.extractLsb'_toNat, Nat.shiftRight_eq_div_pow]
    omega
  · simpa [decodeByte, hhigh] using h.symm

theorem encode_of_decodeMainline {w : Word40} {i : Instr} (h : decodeMainline w = .ok i) :
    i.port = .mainline ∧ encode i = w := by
  have hz : zField w = 0 := ((decodeMainline_ok_iff w).mp ⟨i, h⟩).2.1
  rw [eq_cmd40 hz] at h ⊢
  generalize dataField w = data at h ⊢
  generalize cField w = c at h ⊢
  generalize opField w = op at h ⊢
  rw [decodeMainline_cmd40, decodeFields] at h
  have hop {n : Nat} (hn : op.toNat = n) : op = BitVec.ofNat 4 n := by rw [← hn, BitVec.ofNat_toNat, BitVec.setWidth_eq]
  split at h
  next hn =>
    obtain ⟨rfl, rfl, rfl⟩ := decodeBare_eq_ok h
    exact ⟨rfl, by rw [hop hn]; rfl⟩
  next hn =>
    obtain ⟨rfl, rfl, rfl⟩ := decodeBare_eq_ok h
    exact ⟨rfl, by rw [hop hn]; rfl⟩
  next hn =>
    cases h
    exact ⟨rfl, by rw [hop hn]; rfl⟩
  next hn =>
    obtain ⟨rfl, rfl, rfl⟩ := decodeBare_eq_ok h
    exact ⟨rfl, by rw [hop hn]; rfl⟩
  next hn =>
    obtain ⟨rfl, b, rfl, rfl⟩ := decodeByte_eq_ok h
    exact ⟨rfl, by rw [hop hn]; rfl⟩
  next hn =>
    obtain ⟨rfl, b, rfl, rfl⟩ := decodeByte_eq_ok h
    exact ⟨rfl, by rw [hop hn]; rfl⟩
  next => cases h
  next => cases h

theorem decodeDispatch_eq_ok {w : Word40} {i : Instr} (h : decodeDispatch w = .ok i) : w = rxisrWord ∧ i = .rxisr := by
  obtain rfl := (decodeDispatch_ok_iff w).mp ⟨i, h⟩
  cases h
  exact ⟨rfl, rfl⟩

/-- Settles O2: `Z = 0` and the checks of each arm leave nothing of the word that the command does not hold. -/
theorem encodeUndoesDecode : Obligations.EncodeUndoesDecode := by
  unfold Obligations.EncodeUndoesDecode
  intro p w i h
  cases p with
  | mainline =>
    obtain ⟨hport, henc⟩ := encode_of_decodeMainline h
    exact ⟨by simp [Instr.wellFormedOn, hport], henc⟩
  | dispatch =>
    obtain ⟨rfl, rfl⟩ := decodeDispatch_eq_ok h
    decide

/-- Settles O4, by running the decoder on each word. -/
theorem specWordsDecode : Obligations.SpecWordsDecode := by
  unfold Obligations.SpecWordsDecode
  decide

end Sys2Proof
end

section
/-! PROOF. Running a command: a step runs the decoded command (R90–R92, R163), a busy port takes none, and the run ends (R17). -/

namespace Sys2Proof.Machine

/-! ## A step runs the decoded command -/

theorem step_host {s : State} {w : Word40} {ws : List Word40} {i : Instr} (hf : s.params.sysClkHz ≠ 0)
    (hm : s.nextMove = .host) (hidle : s.idle) (hw : s.hostWords = w :: ws) (hdec : decode .mainline w = .ok i) :
    step s = exec i { s with sched := s.sched.tail, hostWords := ws } := by
  have ready : s.tick.portReady = true := (portReady_iff _).mpr hidle
  have words : s.tick.hostWords = w :: ws := hw
  rw [step_eq_runMove hf, hm, runMove, hostMove, if_pos ready, words]
  simp only [present, hdec]
  rfl

theorem step_isr {s : State} (hf : s.params.sysClkHz ≠ 0) (hm : s.nextMove = .isr) :
    step s = exec .rxisr { s with sched := s.sched.tail } := by
  rw [step_eq_runMove hf, hm]
  rfl

/-- No word is legal on both ports (R91). -/
theorem decode_dispatch_of_mainline {w : Word40} {i : Instr} (h : decode .mainline w = .ok i) :
    decode .dispatch w = .error .notDispatchWord := by
  refine if_neg ?_
  rintro rfl
  have : decode .mainline rxisrWord = .error .rxisrOnMainline := by decide
  cases this.symm.trans h

/-- Settles O5: each agent's move presents or runs the command, and placing a word makes that move the next. -/
theorem stepRunsDecodedCommand : Obligations.StepRunsDecodedCommand := by
  unfold Obligations.StepRunsDecodedCommand
  refine ⟨fun s w ws i hf hm hidle hw hdec => step_host hf hm hidle hw hdec, fun s c hf hm hc => ?_,
    fun s hf hm => step_isr hf hm, fun s nbits w i hf hdec => ?_⟩
  · have hc' : s.tick.cur = some c := hc
    rw [step_eq_runMove hf, hm, runMove, mainlineMove, hc']
    cases c <;> rfl
  · unfold decodeTableWord at hdec
    cases hword : tableWord nbits w with
    | none => simp [hword] at hdec
    | some word =>
      simp only [hword] at hdec
      cases hmain : decode .mainline word with
      | ok j =>
        obtain rfl : j = i := by simpa [hmain] using hdec
        have placed : s.withFetchWord nbits w =
            { s with cur := none, isrSp := none, hostWords := word :: s.hostWords, sched := .host :: s.sched } := by
          simp only [State.withFetchWord, State.placeWord, hword, decode_dispatch_of_mainline hmain]
        rw [placed]
        exact step_host (s := { s with
          cur := none, isrSp := none, hostWords := word :: s.hostWords, sched := .host :: s.sched }) hf rfl ⟨rfl, rfl⟩ rfl
          hmain
      | error e =>
        cases hdisp : decode .dispatch word with
        | error e' => simp [hmain, hdisp] at hdec
        | ok j =>
          obtain rfl : j = i := by simpa [hmain, hdisp] using hdec
          obtain ⟨_, rfl⟩ := decodeDispatch_eq_ok hdisp
          have placed : s.withFetchWord nbits w =
              { s with
                isrSp := none
                eng := { s.eng with rxc := true, intenRxc := true, swrstPending := false }
                plat := { s.plat with lineUnmasked := true }
                sched := .isr :: s.sched } := by
            simp only [State.withFetchWord, State.placeWord, hword, hdisp]
          rw [placed]
          exact step_isr (s := { s with
            isrSp := none
            eng := { s.eng with rxc := true, intenRxc := true, swrstPending := false }
            plat := { s.plat with lineUnmasked := true }
            sched := .isr :: s.sched }) hf rfl

/-! ## A busy port -/

theorem hostMove_busy {s : State} (h : ¬ s.idle) : hostMove s = .next s :=
  if_neg fun hr => h ((portReady_iff s).mp hr)

/-- Settles O7: a mainline step needs the ISR idle and the port free or the command running, and the host a ready port. -/
theorem busyPortTakesNothing : Obligations.BusyPortTakesNothing := by
  unfold Obligations.BusyPortTakesNothing
  refine ⟨fun s i hi hisr => ?_, fun s i c d hi hc hne => ?_, fun s h => hostMove_busy h⟩
  · obtain ⟨c, hc⟩ : ∃ c, cmdOf i = some c := by
      cases i with
      | rxisr => exact absurd rfl hi
      | claim | release | config | rdyq | wrnb | wrblk => exact ⟨_, rfl⟩
    rw [exec_mainline hc, mainlineStep_isr hisr]
  · rw [exec_mainline hi, mainlineStep_busy hc hne.symm]

/-! ## The end of a run -/

/-- What R17 lists, bit by bit. -/
theorem quiescent_iff (s : State) :
    s.quiescent = true ↔
      s.hostWords = [] ∧ s.cur = none ∧ s.isrSp = none ∧ s.eng.pendEnable = none ∧ s.eng.pendCtrlb = none ∧
        s.eng.swrstPending = false ∧ s.eng.txReady = false := by
  simp [State.quiescent, and_assoc]

theorem tick_of_sched_nil {s : State} (h : s.sched = []) : s.tick = s := by
  unfold State.tick
  rw [h]
  cases s
  simp_all

/-- In an ended run with no byte to arrive only a dispatch is left. -/
theorem nextMove_of_quiescent {s : State} (hq : s.quiescent = true) (hs : s.sched = []) (hl : s.lineBytes = []) :
    s.nextMove = if s.dispatchReady then .isr else .host := by
  obtain ⟨hw, hc, hi, hp, hb, hr, ht⟩ := (quiescent_iff s).mp hq
  cases hd : s.dispatchReady <;>
    simp [State.nextMove, hs, defaultPriority, Move.enabled, hw, hc, hi, hp, hb, hr, ht, hl, hd]

/-- An agent with a step, by what of R17's list is left. -/
theorem exists_enabled {s : State} (h : s.quiescent = false ∨ s.dispatchReady = true) :
    ∃ m : Move, m ≠ .line ∧ m.enabled s = true := by
  by_contra hnone
  have off (m : Move) (hm : m ≠ .line) : m.enabled s = false := by
    by_contra hon
    exact hnone ⟨m, hm, by simpa using hon⟩
  have hisr : s.isrSp = none ∧ s.dispatchReady = false := by simpa [Move.enabled] using off .isr nofun
  have hmain : s.cur = none := by simpa [Move.enabled, hisr.1] using off .mainline nofun
  have hhost : s.hostWords = [] := by
    simpa [Move.enabled, State.portReady, hisr.1, hmain] using off .host nofun
  have hp : s.eng.pendEnable = none := by simpa [Move.enabled] using off .engSyncEnable nofun
  have hb : s.eng.pendCtrlb = none := by simpa [Move.enabled] using off .engSyncCtrlb nofun
  have hended : s.quiescent = true :=
    (quiescent_iff s).mpr ⟨hhost, hmain, hisr.1, hp, hb, off .engSwrstDone nofun, off .engTx nofun⟩
  rcases h with h | h
  · simp [hended] at h
  · simp [hisr.2] at h

/-- Settles O10: the next move of an ended run is the pending dispatch, or a host move without a word; and if no agent but
the line had a step, all of R17's list would hold. -/
theorem quiescentRunEnds : Obligations.QuiescentRunEnds := by
  unfold Obligations.QuiescentRunEnds
  refine ⟨fun s hf hq hs hl => ⟨fun hd => ?_, fun hd => ?_⟩, fun s h => exists_enabled h⟩
  · obtain ⟨hw, _⟩ := (quiescent_iff s).mp hq
    rw [step_eq_runMove hf, nextMove_of_quiescent hq hs hl, hd, tick_of_sched_nil hs]
    simp [runMove, hostMove, hw]
  · rw [step_eq_runMove hf, nextMove_of_quiescent hq hs hl, hd, tick_of_sched_nil hs]
    exact exec_rxisr_of_dispatchReady hd

end Sys2Proof.Machine
end

section
/-! PROOF. Exactly-once delivery (R145): what each move logs of received and delivered bytes, and what still waits. -/

namespace Sys2Proof.Machine

section
variable {s t u : State}

/-! ## The two lists of a log -/

@[simp] theorem received_append (l es : List Event) : received (l ++ es) = received l ++ received es :=
  List.filterMap_append

@[simp] theorem delivered_append (l es : List Event) : delivered (l ++ es) = delivered l ++ delivered es :=
  List.filterMap_append

@[simp] theorem received_nil : received [] = [] := rfl
@[simp] theorem delivered_nil : delivered [] = [] := rfl
@[simp] theorem received_cmd (w : Word40) : received [.cmd w] = [] := rfl
@[simp] theorem delivered_cmd (w : Word40) : delivered [.cmd w] = [] := rfl
@[simp] theorem received_rd (r : ReadEntry) : received [.rd r] = [] := rfl
@[simp] theorem delivered_rd (r : ReadEntry) : delivered [.rd r] = [] := rfl
@[simp] theorem received_deliver (b : Byte) : received [.deliver b] = [] := rfl
@[simp] theorem delivered_deliver (b : Byte) : delivered [.deliver b] = [b] := rfl
@[simp] theorem received_wireRx (b : Byte) : received [.wireRx b] = [b] := rfl
@[simp] theorem delivered_wireRx (b : Byte) : delivered [.wireRx b] = [] := rfl

theorem deliveredBeforeNext_snoc {l : List Event} {e : Event} (h : DeliveredBeforeNext l)
    (he : ∀ b, e = .wireRx b → received l = delivered l) : DeliveredBeforeNext (l ++ [e]) := by
  intro before after b heq
  rcases List.eq_nil_or_concat after with rfl | ⟨after, x, rfl⟩
  · obtain ⟨rfl, hlast⟩ := List.append_inj' heq rfl
    exact he b (List.singleton_inj.mp hlast)
  · rw [List.concat_eq_append, ← List.cons_append, ← List.append_assoc] at heq
    exact h before after b (List.append_inj' heq rfl).1

/-- Entries of no received byte do no harm. -/
theorem deliveredBeforeNext_append {l es : List Event} (h : DeliveredBeforeNext l) (hes : received es = []) :
    DeliveredBeforeNext (l ++ es) := by
  induction es generalizing l with
  | nil => simpa using h
  | cons e es ih =>
    rw [← List.singleton_append, received_append, List.append_eq_nil_iff] at hes
    rw [← List.singleton_append, ← List.append_assoc]
    refine ih (deliveredBeforeNext_snoc h ?_) hes.2
    rintro b rfl
    simp [received] at hes

/-! ## The moves that leave the receive side alone -/

/-- `t` has what waits in `s`, and what was logged since is no received or delivered byte. -/
structure SameWaiting (s t : State) : Prop where
  isrSp : t.isrSp = s.isrSp
  isrByte : t.isrByte = s.isrByte
  rxc : t.eng.rxc = s.eng.rxc
  rxData : t.eng.rxData = s.eng.rxData
  entries : ∃ es, t.log = s.log ++ es ∧ received es = [] ∧ delivered es = []

theorem SameWaiting.refl (s : State) : SameWaiting s s := ⟨rfl, rfl, rfl, rfl, [], by simp, rfl, rfl⟩

/-- The usual case: some entries, all explicit. -/
theorem SameWaiting.of_log {es : List Event} (hi : t.isrSp = s.isrSp) (hb : t.isrByte = s.isrByte)
    (hx : t.eng.rxc = s.eng.rxc) (hd : t.eng.rxData = s.eng.rxData) (hlog : t.log = s.log ++ es)
    (hes : received es = [] ∧ delivered es = []) : SameWaiting s t := ⟨hi, hb, hx, hd, es, hlog, hes⟩

theorem configStep_sameWaiting (h : configStep s = .next t) : SameWaiting s t := by
  obtain ⟨⟨hx, hd, _⟩, _, hlog⟩ := configStep_access h
  have hframe := (configStep_effect h).frame
  exact ⟨by rw [hframe], by rw [hframe], hx, hd, hlog⟩

theorem writeData_complete_sameWaiting (s : State) : SameWaiting s ((s.writeData s.bReg).complete false) := by
  rcases writeData_cases s s.bReg with ⟨_, h, _⟩ | ⟨_, _, _, h⟩
  all_goals rw [h]; exact .of_log rfl rfl rfl rfl (List.append_assoc _ _ _) ⟨rfl, rfl⟩

theorem sequenceOf_sameWaiting {c : Cmd} (h : sequenceOf c s = .next t) : SameWaiting s t := by
  cases c with
  | claim =>
    rcases claimStep_cases h with ⟨_, rfl⟩ | ⟨_, rfl⟩ | ⟨_, rfl⟩
    all_goals exact .of_log rfl rfl rfl rfl rfl ⟨rfl, rfl⟩
  | release =>
    rcases releaseStep_cases h with ⟨_, rfl⟩ | ⟨_, rfl⟩ | ⟨_, rfl⟩
    · exact .of_log rfl rfl rfl rfl (List.append_nil _).symm ⟨rfl, rfl⟩
    · exact .of_log rfl rfl rfl rfl rfl ⟨rfl, rfl⟩
    · exact .of_log rfl rfl rfl rfl (List.append_assoc _ _ _) ⟨rfl, rfl⟩
  | config => exact configStep_sameWaiting h
  | rdyq =>
    obtain ⟨_, rfl⟩ := rdyqStep_cases h
    rcases readDre_cases s with ⟨_, h⟩ | ⟨_, _, h⟩ | ⟨_, _, h⟩
    all_goals rw [h]; exact .of_log rfl rfl rfl rfl (List.append_assoc _ _ _) ⟨rfl, rfl⟩
  | wrnb =>
    obtain ⟨_, rfl⟩ := wrnbStep_cases h
    exact writeData_complete_sameWaiting s
  | wrblk =>
    rcases wrblkStep_cases h with ⟨_, rfl⟩ | ⟨_, rfl⟩
    · rcases readDre_cases s with ⟨_, h⟩ | ⟨_, _, h⟩ | ⟨_, _, h⟩
      all_goals rw [h]; exact .of_log rfl rfl rfl rfl rfl ⟨rfl, rfl⟩
    · exact writeData_complete_sameWaiting s

theorem engSyncEnable_sameWaiting (s : State) : SameWaiting s s.engSyncEnable := by
  rcases engSyncEnable_cases s with ⟨_, h⟩ | ⟨_, _, _, h⟩ | ⟨b, _, _, h⟩
  · rw [h]
    exact .refl s
  · rw [h]
    exact .of_log rfl rfl rfl rfl (List.append_nil _).symm ⟨rfl, rfl⟩
  · rw [h]
    refine .of_log rfl rfl rfl rfl rfl ?_
    split <;> exact ⟨rfl, rfl⟩

theorem engSyncCtrlb_sameWaiting (s : State) : SameWaiting s s.engSyncCtrlb := by
  rcases engSyncCtrlb_cases s with ⟨_, h⟩ | ⟨_, _, h⟩
  · rw [h]
    exact .refl s
  · rw [h]
    exact .of_log rfl rfl rfl rfl (List.append_nil _).symm ⟨rfl, rfl⟩

theorem engTx_sameWaiting (s : State) : SameWaiting s s.engTx := by
  rcases engTx_cases s with ⟨_, h⟩ | ⟨_, _, _, h⟩
  · rw [h]
    exact .refl s
  · rw [h]
    exact .of_log rfl rfl rfl rfl rfl ⟨rfl, rfl⟩

/-- A move leaves the receive side alone, or is the ISR's, the completion of an engine reset, or an arrival. -/
theorem runMove_waiting {m : Move} (h : runMove m s = .next t) :
    SameWaiting s t ∨ (m = .isr ∧ exec .rxisr s = .next t) ∨
    (m = .engSwrstDone ∧ s.eng.swrstPending = true ∧ t.isrSp = s.isrSp ∧ t.isrByte = s.isrByte ∧ t.eng.rxc = false ∧
      t.log = s.log) ∨
    ∃ b, m = .line ∧ t.isrSp = s.isrSp ∧ t.isrByte = s.isrByte ∧
      (s.eng.rxc = true ∧ FaultName.rxOverflow ∈ t.faults ∨
        s.eng.rxc = false ∧ t.eng.rxc = true ∧ t.eng.rxData = b ∧ t.log = s.log ++ [.wireRx b]) := by
  rcases runMove_cases h with rfl | ⟨_, _, w, rest, i, c, _, _, _, rfl⟩ | ⟨_, _, w, rest, e, _, _, rfl⟩ |
    ⟨_, _, c, _, hseq⟩ | hisr | ⟨_, rfl⟩ | ⟨_, rfl⟩ | ⟨hm, rfl⟩ | ⟨_, rfl⟩ | ⟨hm, rfl⟩
  · exact .inl (.refl _)
  · exact .inl (.of_log (accept_isrSp _ i c) (accept_isrByte _ i c) (congrArg Engine.rxc (accept_eng _ i c))
      (congrArg Engine.rxData (accept_eng _ i c)) rfl ⟨rfl, rfl⟩)
  · exact .inl (.of_log rfl rfl rfl rfl (List.append_assoc _ _ _) ⟨rfl, rfl⟩)
  · exact .inl (sequenceOf_sameWaiting hseq)
  · exact .inr (.inl hisr)
  · exact .inl (engSyncEnable_sameWaiting s)
  · exact .inl (engSyncCtrlb_sameWaiting s)
  · rcases engSwrstDone_cases s with ⟨_, h⟩ | ⟨hr, h⟩
    · exact .inl (by rw [h]; exact .refl s)
    · exact .inr (.inr (.inl ⟨hm, hr, by rw [h], by rw [h], by rw [h]; rfl, by rw [h]⟩))
  · exact .inl (engTx_sameWaiting s)
  · rcases lineStep_cases s with ⟨_, h⟩ | ⟨b, rest, _, _, ⟨hx, h⟩ | ⟨hx, h⟩⟩
    · exact .inl (by rw [h]; exact .refl s)
    · exact .inr (.inr (.inr ⟨b, hm, by rw [h], by rw [h], .inl ⟨hx, by simp [h]⟩⟩))
    · exact .inr (.inr (.inr ⟨b, hm, by rw [h], by rw [h], .inr ⟨hx, by rw [h], by rw [h], by rw [h]⟩⟩))

/-! ## Each received byte is delivered, in order -/

/-- Without an earlier byte at I2, what waits is the byte in `rx_data`. -/
theorem undelivered_of_ne_i2 (h : s.isrSp ≠ some .i2) :
    s.undelivered = if s.eng.rxc then [s.eng.rxData] else [] := by
  simp [State.undelivered, h]

theorem undelivered_of_i2 (h : s.isrSp = some .i2) :
    s.undelivered = s.isrByte :: if s.eng.rxc then [s.eng.rxData] else [] := by
  simp [State.undelivered, h]

theorem SameWaiting.undelivered (h : SameWaiting s t) : t.undelivered = s.undelivered := by
  unfold State.undelivered
  rw [h.isrSp, h.isrByte, h.rxc, h.rxData]

/-- What the new entries receive joins what waits, what they deliver leaves it. -/
theorem State.ReceivedInOrder.append {es : List Event} (hs : s.ReceivedInOrder) (hlog : t.log = s.log ++ es)
    (h : s.undelivered ++ received es = delivered es ++ t.undelivered) : t.ReceivedInOrder := by
  unfold State.ReceivedInOrder at *
  rw [hlog, received_append, delivered_append, hs, List.append_assoc, h, List.append_assoc]

theorem SameWaiting.receivedInOrder (h : SameWaiting s t) (hs : s.ReceivedInOrder) : t.ReceivedInOrder := by
  obtain ⟨es, hlog, hr, hd⟩ := h.entries
  exact hs.append hlog (by rw [hr, hd, h.undelivered, List.append_nil, List.nil_append])

/-- The ISR moves the waiting byte from `rx_data` to its own register (I1), and from there to the callback (I2). -/
theorem rxisr_receivedInOrder (hinv : s.Inv) (hs : s.ReceivedInOrder) (h : exec .rxisr s = .next t) :
    t.ReceivedInOrder := by
  rcases rxisr_cases h with ⟨hi, _, rfl⟩ | ⟨_, _, rfl⟩ | ⟨hat, _⟩ | ⟨hat, _⟩ | ⟨hat, _⟩
  · refine hs.append (es := [.cmd rxisrWord]) rfl ?_
    rw [undelivered_of_ne_i2 (by simp [hi]), undelivered_of_ne_i2 (by simp)]
    exact List.append_nil _
  · exact hs
  · obtain ⟨hr, hx⟩ := hinv.isr_at_i0 hat
    cases (exec_rxisr_i0_full hat hr hx).symm.trans h
    refine hs.append rfl ?_
    rw [undelivered_of_ne_i2 (by simp [hat]), undelivered_of_ne_i2 (by simp)]
    simp
  · obtain ⟨hr, hx, _⟩ := hinv.isr_at_i1 hat
    cases (exec_rxisr_i1 hat hr hx).symm.trans h
    refine hs.append rfl ?_
    rw [undelivered_of_ne_i2 (by simp [hat]), undelivered_of_i2 rfl]
    simp [hx]
  · cases (exec_rxisr_i2 hat).symm.trans h
    refine hs.append rfl ?_
    rw [undelivered_of_i2 hat, undelivered_of_ne_i2 (by simp)]
    simp

theorem step_receivedInOrder (hinv : s.Inv) (hs : s.ReceivedInOrder) (h : step s = .next t)
    (hfault : FaultName.rxOverflow ∉ t.faults)
    (hdrop : ¬ (s.nextMove = .engSwrstDone ∧ s.eng.swrstPending = true ∧ s.eng.rxc = true)) : t.ReceivedInOrder := by
  rcases runMove_waiting (s := s.tick) (runMove_of_step h).2 with hsame | ⟨_, hisr⟩ | ⟨hm, hr, hi, hb, hx, hlog⟩ |
    ⟨b, _, hi, hb, ⟨_, hlost⟩ | ⟨hx, hx', rfl, hlog⟩⟩
  · exact hsame.receivedInOrder (s := s.tick) hs
  · exact rxisr_receivedInOrder hinv.tick hs hisr
  · have hx' : s.eng.rxc = false := by
      by_contra hne
      exact hdrop ⟨hm, hr, by simpa using hne⟩
    refine hs.append (es := []) (hlog.trans (List.append_nil _).symm) ?_
    simp [State.undelivered, hi, hb, hx, hx']
  · exact absurd hlost hfault
  · have hx : s.eng.rxc = false := hx
    refine hs.append hlog ?_
    simp [State.undelivered, hi, hb, hx, hx']

/-! ## Each before the next is received -/

theorem rxisr_deliveredBeforeNext (hinv : s.Inv) (hs : DeliveredBeforeNext s.log) (h : exec .rxisr s = .next t) :
    DeliveredBeforeNext t.log := by
  rcases rxisr_cases h with ⟨_, _, rfl⟩ | ⟨_, _, rfl⟩ | ⟨hat, _⟩ | ⟨hat, _⟩ | ⟨hat, rfl⟩
  · exact deliveredBeforeNext_snoc hs nofun
  · exact hs
  · obtain ⟨hr, hx⟩ := hinv.isr_at_i0 hat
    cases (exec_rxisr_i0_full hat hr hx).symm.trans h
    exact deliveredBeforeNext_snoc hs nofun
  · obtain ⟨hr, hx, _⟩ := hinv.isr_at_i1 hat
    cases (exec_rxisr_i1 hat hr hx).symm.trans h
    exact deliveredBeforeNext_snoc hs nofun
  · exact deliveredBeforeNext_snoc hs nofun

theorem step_deliveredBeforeNext (hinv : s.Inv) (hs : s.ReceivedInOrder) (h : step s = .next t)
    (hlog : DeliveredBeforeNext s.log) (hline : s.nextMove = .line → s.eng.rxc = false ∧ s.isrSp ≠ some .i2) :
    DeliveredBeforeNext t.log := by
  rcases runMove_waiting (s := s.tick) (runMove_of_step h).2 with hsame | ⟨_, hisr⟩ | ⟨_, _, _, _, _, hsilent⟩ |
    ⟨b, hm, _, _, ⟨hx, _⟩ | ⟨_, _, _, harrival⟩⟩
  · obtain ⟨es, hes, hr, _⟩ := hsame.entries
    rw [hes]
    exact deliveredBeforeNext_append hlog hr
  · exact rxisr_deliveredBeforeNext hinv.tick hlog hisr
  · rw [hsilent]
    exact hlog
  · obtain ⟨hx', _⟩ := hline hm
    cases hx'.symm.trans hx
  · obtain ⟨hx, hi⟩ := hline hm
    rw [harrival]
    -- Nothing waits when the byte arrives, so all that was received has been delivered.
    refine deliveredBeforeNext_snoc hlog fun _ _ => ?_
    simpa [State.ReceivedInOrder, State.undelivered, hx, hi] using hs

/-! ## The arrival at I2 (R167 item 5) -/

theorem arrival_at_i2 {b : Byte} {rest : List Byte} (hi : s.isrSp = some .i2) (hx : s.eng.rxc = false)
    (hready : s.eng.rxReady = true) (hirq : s.eng.intenRxc = true) (hl : s.plat.lineUnmasked = true)
    (hbytes : s.lineBytes = b :: rest) :
    ∃ t u, runMove .line s = .next t ∧ execTimes 5 .rxisr t = .next u ∧ u.isrSp = none ∧ u.faults = s.faults ∧
      u.log = s.log ++
        [.wireRx b, .deliver s.isrByte, .cmd 0x0000000007, .rd (.intflagRxc true), .rd (.data b), .deliver b] := by
  obtain ⟨_, _, hr⟩ := (rxReady_iff _).mp hready
  refine ⟨_, _, congrArg Host.Outcome.next (lineStep_store hbytes hready hx),
    (execTimes_succ_of_next 4 (exec_rxisr_i2 (by exact hi))).trans
      (execTimes_rxisr ((dispatchReady_iff _).mpr ⟨⟨rfl, hirq, hr⟩, hl, rfl⟩)), rfl, rfl, ?_⟩
  simp [rxisrWord]

end

/-- Settles O46: the ISR hands on what waits, an arrival adds to it, and no other move touches it. -/
theorem exactlyOnceDelivery : Obligations.ExactlyOnceDelivery := by
  unfold Obligations.ExactlyOnceDelivery
  refine ⟨fun p => ⟨rfl, fun before after b h => ?_⟩, fun s t hinv hs h =>
    ⟨step_receivedInOrder hinv hs h, step_deliveredBeforeNext hinv hs h⟩, fun s b rest => arrival_at_i2⟩
  exact absurd h.symm (by simp [State.resetWith])

end Sys2Proof.Machine
end

section
/-! PROOF. The baud divisor: the bounds of its datapath (R133), the cases of its error (R135) and its alternative
definition (R138). -/

namespace Sys2Proof.Machine

/-! ## The bounds (R133) -/

/-- A masked stage whose partial result is below the rate hands on a partial result below the rate. -/
theorem stage_shift_lt_rate (r : BitVec 32) (frag : BitVec 10) {p : Nat} (hp : p < r.toNat) :
    (r.toNat * frag.toNat + p) >>> 10 < r.toNat := by
  have hprod : r.toNat * frag.toNat ≤ r.toNat * 1023 := Nat.mul_le_mul_left _ (by omega)
  rw [Nat.shiftRight_eq_div_pow]
  omega

theorem run_t1_toNat_lt_rate (d : Datapath) {r : BitVec 32} (hr : 1 ≤ r.toNat) : (d.run r).t1.toNat < r.toNat := by
  rw [run_t1_toNat, run_t2_toNat, run_t3_toNat]
  exact stage_shift_lt_rate r _ (stage_shift_lt_rate r _ (stage_shift_lt_rate (p := 0) r _ hr))

/-- Settles O30: each stage hands on less than the rate. -/
theorem datapathNeverOverflows : Obligations.DatapathNeverOverflows := by
  unfold Obligations.DatapathNeverOverflows
  intro f r _
  refine ⟨reset_frag0_toNat_le f, rate_mul_frag_lt r _, rate_mul_frag_lt r _, rate_mul_frag_lt r _,
    (run_t3_toNat_le_rate _ r).trans_lt r.isLt, run_t1_toNat_lt_rate _, ?_⟩
  have hprod : r.toNat * (Datapath.reset f).frag0.toNat ≤ r.toNat * 2 ^ 32 :=
    Nat.mul_le_mul_left _ (reset_frag0_toNat_le f)
  have ht1 := run_t1_toNat_le_rate (Datapath.reset f) r
  omega

/-! ## The cases of the error (R135) -/

/-- Taking less than the fraction, or the whole of it, away does not reach the integer below. -/
theorem floor_sub_of_le_fract {x δ : ℚ} (h0 : 0 ≤ δ) (h : δ ≤ Int.fract x) : ⌊x - δ⌋ = ⌊x⌋ := by
  rw [Int.floor_eq_iff]
  have := Int.self_sub_floor x
  have := Int.fract_lt_one x
  constructor <;> linarith

/-- Taking more than the fraction away passes the integer below, and no other. -/
theorem floor_sub_of_fract_lt {x δ : ℚ} (h1 : δ < 1) (h : Int.fract x < δ) : ⌊x - δ⌋ = ⌊x⌋ - 1 := by
  rw [Int.floor_eq_iff]
  have := Int.self_sub_floor x
  have := Int.fract_nonneg x
  push_cast
  constructor <;> linarith

theorem ceil_eq_floor_add_one {x : ℚ} (h : 0 < Int.fract x) : ⌈x⌉ = ⌊x⌋ + 1 :=
  (Int.ceil_eq_floor_add_one_iff_notMem x).mpr (mt Int.fract_eq_zero_iff.mpr h.ne')

theorem ceil_eq_floor {x : ℚ} (h : Int.fract x = 0) : ⌈x⌉ = ⌊x⌋ := by
  obtain ⟨n, rfl⟩ := Int.fract_eq_zero_iff.mp h
  rw [Int.ceil_intCast, Int.floor_intCast]

section
variable {f r : BitVec 32}

/-- `x - δ` is what the rounded reciprocal gives: `R * Q / 2^42`. -/
theorem quotient_sub_loss (hf : f ≠ 0) :
    (r.toNat * 2 ^ 20 / f.toNat - r.toNat * ((2 ^ 62 % f.toNat : ℕ) : ℚ) / (f.toNat * 2 ^ 42) : ℚ) =
      ((r.toNat * (2 ^ 62 / f.toNat) : ℕ) : ℚ) / ((2 ^ 42 : ℕ) : ℚ) := by
  have hF : (f.toNat : ℚ) ≠ 0 := by exact_mod_cast (toNat_pos_of_ne_zero hf).ne'
  have hQ : (f.toNat : ℚ) * ((2 ^ 62 / f.toNat : ℕ) : ℚ) + ((2 ^ 62 % f.toNat : ℕ) : ℚ) = 2 ^ 62 := by
    exact_mod_cast Nat.div_add_mod (2 ^ 62) f.toNat
  rw [eq_sub_of_add_eq' hQ]
  push_cast
  field_simp
  ring

theorem op1_eq_floor (hf : f ≠ 0) :
    (((Datapath.reset f).run r).op1.toNat : ℤ) =
      ⌊(r.toNat * 2 ^ 20 / f.toNat - r.toNat * ((2 ^ 62 % f.toNat : ℕ) : ℚ) / (f.toNat * 2 ^ 42) : ℚ)⌋ := by
  rw [quotient_sub_loss hf, Rat.floor_natCast_div_natCast, op1_toNat_eq]
  norm_cast

/-- A clock leaves no remainder of `2^62` exactly when it is a power of two. -/
theorem two_pow_mod_eq_zero_iff : 2 ^ 62 % f.toNat = 0 ↔ ∃ k, f.toNat = 2 ^ k := by
  constructor
  · intro h
    by_contra hne
    exact (two_pow_mod_pos (not_exists.mp hne)).ne' h
  · rintro ⟨k, hk⟩
    have hlt : 2 ^ k < 2 ^ 32 := hk ▸ f.isLt
    have hk' : k < 32 := (Nat.pow_lt_pow_iff_right (by decide)).mp hlt
    rw [hk]
    exact Nat.mod_eq_zero_of_dvd (Nat.pow_dvd_pow 2 (by omega))

end

/-- Settles O33: `op1` is the floor of `x - δ`, and `δ` is less than 1. -/
theorem accuracyCases : Obligations.AccuracyCases := by
  unfold Obligations.AccuracyCases
  rintro f r x δ hf hx hδ
  have hop : (((Datapath.reset f).run r).op1.toNat : ℤ) = ⌊x - δ⌋ := hx ▸ hδ ▸ op1_eq_floor hf
  have hF : (0 : ℚ) < f.toNat := by exact_mod_cast toNat_pos_of_ne_zero hf
  have hmod : ((2 ^ 62 % f.toNat : ℕ) : ℚ) < f.toNat := by exact_mod_cast Nat.mod_lt _ (toNat_pos_of_ne_zero hf)
  have h0 : 0 ≤ δ := hδ ▸ by positivity
  have hzero : δ = 0 ↔ r = 0 ∨ ∃ k, f.toNat = 2 ^ k := by
    rw [hδ, ← two_pow_mod_eq_zero_iff, div_eq_zero_iff, mul_eq_zero, Nat.cast_eq_zero, Nat.cast_eq_zero,
      ← BitVec.toNat_inj]
    simp [hF.ne']
  have hbound : 1 ≤ r.toNat → δ < r.toNat / 2 ^ 42 := by
    intro hr
    have hR : (0 : ℚ) < r.toNat := by exact_mod_cast hr
    rw [hδ, div_lt_div_iff₀ (by positivity) (by positivity), ← mul_assoc]
    gcongr
  have hsmall : (r.toNat : ℚ) / 2 ^ 42 < 1 / 2 ^ 10 := by
    have hR : (r.toNat : ℚ) < 2 ^ 32 := by exact_mod_cast r.isLt
    rw [div_lt_div_iff₀ (by positivity) (by positivity)]
    linarith
  have h1 : δ < 1 := by
    rcases Nat.eq_zero_or_pos r.toNat with hr | hr
    · simp [hδ, hr]
    · linarith [hbound hr]
  refine ⟨h0, hbound, hsmall, hop, hzero, fun h => by rw [hop, h, sub_zero], fun _ hpos hlt => ?_, fun hpos hcase => ?_⟩
  · rw [hop, floor_sub_of_fract_lt h1 hlt, ceil_eq_floor_add_one hpos]
    omega
  · have hceil : (((Datapath.reset f).run r).op1.toNat : ℤ) = ⌈x⌉ - 1 := by
      rcases hcase with hint | hle
      · rw [hop, floor_sub_of_fract_lt h1 (hint ▸ hpos), ceil_eq_floor hint]
      · rw [hop, floor_sub_of_le_fract h0 hle, ceil_eq_floor_add_one (hpos.trans_le hle), add_sub_cancel_right]
    refine ⟨hceil, ?_⟩
    have := baudDivisor_toNat f r
    omega

/-! ## The alternative definition (R138) -/

/-- The rounding on naturals is the floor of the quotient and a half. -/
theorem floor_add_half {n m : Nat} (hm : 0 < m) : ⌊(n : ℚ) / m + 1 / 2⌋ = (((2 * n + m) / (2 * m) : ℕ) : ℤ) := by
  have hm' : (m : ℚ) ≠ 0 := by exact_mod_cast hm.ne'
  have h : (n : ℚ) / m + 1 / 2 = ((2 * n + m : ℕ) : ℚ) / ((2 * m : ℕ) : ℚ) := by
    push_cast
    field_simp
  rw [h, Rat.floor_natCast_div_natCast]
  norm_cast

theorem referenceDivisor_toNat {f r : BitVec 32} (hf : f ≠ 0) :
    ((referenceDivisor f r).toNat : ℤ) =
      min 65535 (max 0 (65536 - ⌊(r.toNat * 2 ^ 20 : ℚ) / f.toNat + 1 / 2⌋)) := by
  have hround := floor_add_half (n := r.toNat * 2 ^ 20) (toNat_pos_of_ne_zero hf)
  rw [Nat.cast_mul, Nat.cast_pow, Nat.cast_ofNat] at hround
  rw [hround, referenceDivisor, BitVec.toNat_ofNat]
  omega

/-- Where the fraction is 0 or at least 1/2, rounding is rounding up. -/
theorem floor_add_half_eq_ceil {x : ℚ} (h : Int.fract x = 0 ∨ 1 / 2 ≤ Int.fract x) : ⌊x + 1 / 2⌋ = ⌈x⌉ := by
  have := Int.self_sub_floor x
  have := Int.fract_lt_one x
  rcases h with h | h
  · rw [ceil_eq_floor h, Int.floor_eq_iff]
    constructor <;> linarith
  · rw [ceil_eq_floor_add_one (by linarith), Int.floor_eq_iff]
    push_cast
    constructor <;> linarith

/-- Settles O35: in the domain neither the clamp nor the wrap does anything, and both divisors are `65536 - ceil(x)`. -/
theorem referenceDivisor_isClampedRounding : Obligations.ReferenceDivisor := by
  unfold Obligations.ReferenceDivisor
  refine ⟨fun f r hf => referenceDivisor_toNat hf, fun f hf => ⟨?_, ?_⟩, fun f r x hf hr hdom hx hop hfract => ?_,
    by decide, fun s h hmode => ⟨_, exec_config_of_standsAt h, ?_⟩⟩
  · refine BitVec.eq_of_toNat_eq ?_
    have hhalf : ⌊(1 / 2 : ℚ)⌋ = 0 := by norm_num
    have href := referenceDivisor_toNat (r := 0) hf
    rw [show (0 : BitVec 32).toNat = 0 from rfl, Nat.cast_zero, zero_mul, zero_div, zero_add, hhalf] at href
    exact Int.ofNat_inj.mp href
  · exact BitVec.eq_of_toNat_eq (baudDivisor_toNat_of_op1_le (n := 0) (by rw [op1_toNat_eq]; simp) (by decide))
  · have href := referenceDivisor_toNat (r := r) hf
    have hbaud := baudDivisor_toNat f r
    have hF : (0 : ℚ) < f.toNat := by exact_mod_cast toNat_pos_of_ne_zero hf
    have hpos : 0 < ⌈x⌉ := by
      rw [Int.ceil_pos, hx]
      have : (0 : ℚ) < r.toNat := by exact_mod_cast hr
      positivity
    have hle : ⌈x⌉ ≤ 65536 := by
      rw [Int.ceil_le, hx, div_le_iff₀ hF]
      exact_mod_cast (by omega : r.toNat * 2 ^ 20 ≤ 65536 * f.toNat)
    rw [← hx, floor_add_half_eq_ceil hfract] at href
    refine BitVec.eq_of_toNat_eq ?_
    omega
  · change (State.dividedDatapath s).dReg = _
    rw [dividedDatapath_referenceRound hmode]

end Sys2Proof.Machine
end

section
/-! PROOF. The byte exchange run as a whole: WRBLK's polls and its write (R141), the host's loop in its place (R97), and
the ISR between the steps (R149). -/

namespace Sys2Proof.Machine

/-! ## The numbered steps B0 and B1 -/

section
variable {s : State}

theorem exec_wrblk_of_standsAt_zero (b : Byte) (h : s.standsAt .wrblk 0) :
    exec (.wrblk b) s = .next ({ s.readDre.2 with qTmp := s.readDre.1 }.gotoStep (if s.readDre.1 then 1 else 0)) := by
  have ⟨_, _, hsp⟩ := h
  rw [exec_of_standsAt rfl h]
  simp only [sequenceOf, wrblkStep, hsp]

theorem exec_wrblk_of_standsAt_one (b : Byte) (h : s.standsAt .wrblk 1) :
    exec (.wrblk b) s = .next ((s.writeData s.bReg).complete false) := by
  have ⟨_, _, hsp⟩ := h
  rw [exec_of_standsAt rfl h]
  simp only [sequenceOf, wrblkStep, hsp]

/-- B0 with the transmitter on goes on exactly when `tx_hold` is empty. -/
theorem exec_wrblk_zero_on (b : Byte) (hr : s.eng.swrstPending = false) (ht : s.eng.transmitterOn = true)
    (h : s.standsAt .wrblk 0) :
    exec (.wrblk b) s =
      .next { s with
        qTmp := s.eng.txHold.isNone, sp := if s.eng.txHold = none then 1 else 0
        log := s.log ++ [.rd (.intflagDre s.eng.txHold.isNone)] } := by
  rw [exec_wrblk_of_standsAt_zero b h, readDre_on hr ht]
  simp [State.emit, State.gotoStep]

theorem exec_wrblk_one_room (b : Byte) (hr : s.eng.swrstPending = false) (ht : s.eng.transmitterOn = true)
    (hempty : s.eng.txHold = none) (h : s.standsAt .wrblk 1) :
    exec (.wrblk b) s =
      .next { s with
        eng := { s.eng with txHold := some s.bReg }, rsp := some false, cur := none
        log := s.log ++ [.wr (.data s.bReg), .rsp false] } := by
  rw [exec_wrblk_of_standsAt_one b h, writeData_room hr ht hempty]
  simp [State.complete]

/-- While `tx_hold` is full, `n` polls are `n` reads of 0. -/
theorem execTimes_wrblk_full (b : Byte) (n : Nat) {s : State} (hr : s.eng.swrstPending = false)
    (ht : s.eng.transmitterOn = true) (hfull : s.eng.txHold ≠ none) (h : s.standsAt .wrblk 0) :
    ∃ q, execTimes n (.wrblk b) s =
      .next { s with qTmp := q, sp := 0, log := s.log ++ List.replicate n (.rd (.intflagDre false)) } := by
  induction n generalizing s with
  | zero =>
    refine ⟨s.qTmp, congrArg Host.Outcome.next ?_⟩
    rw [List.replicate_zero, List.append_nil, ← h.2.2]
  | succ n ih =>
    have hfalse : s.eng.txHold.isNone = false := Option.isNone_eq_false_iff.mpr (Option.isSome_iff_ne_none.mpr hfull)
    have hstep := exec_wrblk_zero_on b hr ht h
    rw [if_neg hfull, hfalse] at hstep
    rw [execTimes_succ_of_next n hstep]
    obtain ⟨q, hq⟩ := ih (s := { s with qTmp := _, sp := 0, log := _ }) hr ht hfull ⟨h.1, h.2.1, rfl⟩
    exact ⟨q, hq.trans (by simp [List.replicate_succ])⟩

/-- Once the byte is sent, one poll reads 1 and the write follows. -/
theorem execTimes_wrblk_drained (b prev : Byte) (hr : s.eng.swrstPending = false) (ht : s.eng.transmitterOn = true)
    (hhold : s.eng.txHold = some prev) (h : s.standsAt .wrblk 0) :
    ∃ u, execTimes 2 (.wrblk b) s.engTx = .next u ∧
      u.log = s.log ++ [.wireTx prev, .rd (.intflagDre true), .wr (.data s.bReg), .rsp false] ∧
      u.cur = none ∧ u.rsp = some false ∧ u.eng = { s.eng with txHold := some s.bReg } ∧ u.faults = s.faults := by
  obtain ⟨hon, _, htx⟩ := (transmitterOn_iff _).mp ht
  rw [engTx_ready ((txReady_iff _).mpr ⟨hon, htx, by simp [hhold]⟩) hhold]
  refine ⟨_, (execTimes_succ_of_next 1 (exec_wrblk_zero_on b (by exact hr) (by exact ht) (by exact h))).trans
    (execTimes_succ_of_next 0 (exec_wrblk_one_room b (by exact hr) (by exact ht) rfl (by exact ⟨h.1, h.2.1, rfl⟩))),
    by simp, rfl, rfl, rfl, rfl⟩

end

/-- Settles O38: each poll is one read; the polls of a full `tx_hold`, the drain, and then the last poll and the write. -/
theorem wrblkPollsThenWrites : Obligations.WrblkPollsThenWrites := by
  unfold Obligations.WrblkPollsThenWrites
  refine ⟨fun s b hr => ⟨fun h ht => exec_wrblk_zero_on b hr ht h, fun h ht => ?_, fun h ht hempty =>
    exec_wrblk_one_room b hr ht hempty h, fun h ht => ?_, fun h ht hfull => ?_⟩, fun s b prev n hr ht hhold h hb => ?_⟩
  · rw [exec_wrblk_of_standsAt_zero b h, readDre_off hr ht]
    rfl
  · rw [exec_wrblk_of_standsAt_one b h, writeData_off hr ht]
    simp [State.ignoredAccess, State.complete]
  · rw [exec_wrblk_of_standsAt_one b h, writeData_full hr ht hfull]
    simp [State.ignoredAccess, State.complete]
  · obtain ⟨q, hpolls⟩ := execTimes_wrblk_full b n hr ht (by simp [hhold]) h
    obtain ⟨u, hrun, hlog, hend⟩ := execTimes_wrblk_drained b prev (s := { s with qTmp := q, sp := 0, log := _ })
      hr ht hhold ⟨h.1, h.2.1, rfl⟩
    subst hb
    exact ⟨_, u, hpolls, hrun, hlog, hend⟩

/-! ## What a DRE read and a `DATA` write depend on -/

/-- The engines agree in all that the transmitter's registers show. -/
structure SameTxSide (e e' : Engine) : Prop where
  swrstPending : e'.swrstPending = e.swrstPending
  transmitterOn : e'.transmitterOn = e.transmitterOn
  txHold : e'.txHold = e.txHold

section
variable {s : State}

theorem readDre_shape (hr : s.eng.swrstPending = false) :
    ∃ v d, ∀ u : State, SameTxSide s.eng u.eng → u.draws = s.draws →
      u.readDre = (v, { u with draws := d, log := u.log ++ [.rd (.intflagDre v)] }) := by
  cases ht : s.eng.transmitterOn with
  | true =>
    refine ⟨s.eng.txHold.isNone, s.draws, fun u hu hd => ?_⟩
    rw [readDre_on (hu.swrstPending.trans hr) (hu.transmitterOn.trans ht), hu.txHold, ← hd]
    rfl
  | false =>
    refine ⟨Config.freeBit s.draws, s.draws + 1, fun u hu hd => ?_⟩
    rw [readDre_off (hu.swrstPending.trans hr) (hu.transmitterOn.trans ht), hd]

theorem writeData_shape (hr : s.eng.swrstPending = false) (b : Byte) :
    ∃ (hold : Option Byte) (raise : List FaultName → List FaultName) (es : List Event),
      ∀ u : State, SameTxSide s.eng u.eng →
        u.writeData b =
          { u with eng := { u.eng with txHold := hold }, faults := raise u.faults, log := u.log ++ es } := by
  cases ht : s.eng.transmitterOn with
  | false =>
    refine ⟨s.eng.txHold, addFault .txDisabled, [.wr (.data b), .fault .txDisabled], fun u hu => ?_⟩
    rw [writeData_off (hu.swrstPending.trans hr) (hu.transmitterOn.trans ht), ← hu.txHold]
    rfl
  | true =>
    by_cases hempty : s.eng.txHold = none
    · refine ⟨some b, id, [.wr (.data b)], fun u hu => ?_⟩
      rw [writeData_room (hu.swrstPending.trans hr) (hu.transmitterOn.trans ht) (hu.txHold.trans hempty)]
      rfl
    · refine ⟨s.eng.txHold, addFault .txOverrun, [.wr (.data b), .fault .txOverrun], fun u hu => ?_⟩
      rw [writeData_full (hu.swrstPending.trans hr) (hu.transmitterOn.trans ht) (by rwa [hu.txHold]), ← hu.txHold]
      rfl

end

/-! ## WRBLK as a loop of the host -/

@[simp] theorem transactions_append (l es : List Event) : transactions (l ++ es) = transactions l ++ transactions es :=
  List.filter_append _ _

@[simp] theorem transactions_nil : transactions [] = [] := rfl
@[simp] theorem transactions_cons_cmd (w : Word40) (l : List Event) : transactions (.cmd w :: l) = transactions l := rfl
@[simp] theorem transactions_cons_rsp (v : Bool) (l : List Event) : transactions (.rsp v :: l) = transactions l := rfl
@[simp] theorem transactions_cons_rd (r : ReadEntry) (l : List Event) :
    transactions (.rd r :: l) = .rd r :: transactions l := rfl

/-- The host's `wrnb` and B1 make the same write. -/
theorem wrnb_sameTransactions {s u : State} {b : Byte} (hs : s.idle) (hu : u.standsAt .wrblk 1) (hub : u.bReg = b)
    (hr : s.eng.swrstPending = false) (h : SameTransactions s u) :
    ∃ t v, execTimes 2 (.wrnb b) s = .next t ∧ exec (.wrblk b) u = .next v ∧ t.idle ∧ v.idle ∧ SameTransactions t v ∧
      t.rsp = v.rsp ∧ t.eng = v.eng := by
  obtain ⟨heng, hdraws, hlog⟩ := h
  obtain ⟨hold, raise, es, hwrite⟩ := writeData_shape hr b
  have answered := exec_wrnb_of_standsAt (s := s.accept (.wrnb b) .wrnb) b ⟨hs.2, rfl, rfl⟩
  have written := exec_wrblk_of_standsAt_one b hu
  rw [show (s.accept (.wrnb b) .wrnb).bReg = b from rfl, hwrite (s.accept (.wrnb b) .wrnb) ⟨rfl, rfl, rfl⟩] at answered
  rw [hub, hwrite u (heng ▸ ⟨rfl, rfl, rfl⟩)] at written
  have heng' : { s.eng with txHold := hold } = { u.eng with txHold := hold } := by rw [heng]
  refine ⟨_, _, (execTimes_succ_of_next 1 (exec_of_idle rfl hs)).trans (execTimes_succ_of_next 0 answered), written,
    ⟨rfl, hs.2⟩, ⟨rfl, hu.1⟩, ⟨heng', hdraws, ?_⟩, rfl, heng'⟩
  simp [State.accept, State.loadOperands, State.complete, ← hlog]

/-- Settles O39: the round's read is the poll's, and its answer says whether the write follows. -/
theorem wrblkExpansion : Obligations.WrblkExpansion := by
  unfold Obligations.WrblkExpansion
  rintro s u b ⟨hcur, hisr⟩ hu hub hr ⟨heng, hdraws, hlog⟩
  obtain ⟨v, d, hread⟩ := readDre_shape hr
  have answered := exec_rdyq_of_standsAt (s := s.accept .rdyq .rdyq) ⟨hisr, rfl, rfl⟩
  have polled := exec_wrblk_of_standsAt_zero b hu
  rw [hread (s.accept .rdyq .rdyq) ⟨rfl, rfl, rfl⟩ rfl] at answered
  rw [hread u (heng ▸ ⟨rfl, rfl, rfl⟩) hdraws.symm] at polled
  have same : transactions (s.log ++ [.cmd (encode .rdyq)] ++ [.rd (.intflagDre v)] ++ [.rsp v]) =
      transactions (u.log ++ [.rd (.intflagDre v)]) := by simp [hlog]
  refine ⟨_, _, (execTimes_succ_of_next 1 (exec_of_idle rfl ⟨hcur, hisr⟩)).trans (execTimes_succ_of_next 0 answered),
    polled, ⟨rfl, hisr⟩, ⟨heng, rfl, same⟩, ?_⟩
  cases v with
  | false => exact .inl ⟨rfl, ⟨hu.1, hu.2.1, rfl⟩, hub⟩
  | true => exact .inr ⟨rfl, wrnb_sameTransactions ⟨rfl, hisr⟩ ⟨hu.1, hu.2.1, rfl⟩ hub hr ⟨heng, rfl, same⟩⟩

/-! ## The ISR between the steps -/

/-- What a complete run of the ISR does, and the log put to `l`. -/
def State.afterRxisr (s : State) (l : List Event) : State :=
  { s with
    eng := { s.eng with rxc := false }, isrF := true, isrByte := s.eng.rxData
    hostState := invokeCallback s.params.callback s.eng.rxData s.hostState, log := l }

/-- The entries of a complete run of the ISR that finds the byte `b`. -/
def rxisrEntries (b : Byte) : List Event := [.cmd rxisrWord, .rd (.intflagRxc true), .rd (.data b), .deliver b]

theorem execTimes_rxisr_afterRxisr {s : State} (h : s.dispatchReady = true) :
    execTimes 4 .rxisr s = .next (s.afterRxisr (s.log ++ rxisrEntries s.eng.rxData)) := execTimes_rxisr h

theorem readDre_afterRxisr {s : State} (hr : s.eng.swrstPending = false) :
    ∃ es, s.readDre.2.log = s.log ++ es ∧
      ∀ l, (s.afterRxisr l).readDre = (s.readDre.1, s.readDre.2.afterRxisr (l ++ es)) := by
  obtain ⟨v, d, hread⟩ := readDre_shape hr
  have hs := hread s ⟨rfl, rfl, rfl⟩ rfl
  refine ⟨[.rd (.intflagDre v)], by rw [hs], fun l => ?_⟩
  rw [hread (s.afterRxisr l) ⟨rfl, rfl, rfl⟩ rfl, hs]
  rfl

theorem writeData_afterRxisr {s : State} (hr : s.eng.swrstPending = false) (b : Byte) :
    ∃ es, (s.writeData b).log = s.log ++ es ∧
      ∀ l, (s.afterRxisr l).writeData b = (s.writeData b).afterRxisr (l ++ es) := by
  obtain ⟨hold, raise, es, hwrite⟩ := writeData_shape hr b
  have hs := hwrite s ⟨rfl, rfl, rfl⟩
  refine ⟨es, by rw [hs], fun l => ?_⟩
  rw [hwrite (s.afterRxisr l) ⟨rfl, rfl, rfl⟩, hs]
  rfl

/-- A step takes `s` to `u`, and after a run of the ISR it does the same and logs the same. -/
def CommutesWithRxisr (step : State → Answer) (s u : State) : Prop :=
  ∃ es, u.log = s.log ++ es ∧ ∀ l, step (s.afterRxisr l) = .next (u.afterRxisr (l ++ es))

theorem wrnbStep_commutes {s u : State} (hr : s.eng.swrstPending = false) (h : wrnbStep s = .next u) :
    CommutesWithRxisr wrnbStep s u := by
  obtain ⟨hsp, rfl⟩ := wrnbStep_cases h
  obtain ⟨es, hlog, hwrite⟩ := writeData_afterRxisr hr s.bReg
  refine ⟨es ++ [.rsp false], by simp [State.complete, hlog], fun l => ?_⟩
  rw [wrnbStep, show (s.afterRxisr l).sp = 0 from hsp, show (s.afterRxisr l).bReg = s.bReg from rfl, hwrite]
  simp [State.complete, State.afterRxisr]

theorem rdyqStep_commutes {s u : State} (hr : s.eng.swrstPending = false) (h : rdyqStep s = .next u) :
    CommutesWithRxisr rdyqStep s u := by
  obtain ⟨hsp, rfl⟩ := rdyqStep_cases h
  obtain ⟨es, hlog, hread⟩ := readDre_afterRxisr hr
  refine ⟨es ++ [.rsp s.readDre.1], by simp [State.complete, hlog], fun l => ?_⟩
  rw [rdyqStep, show (s.afterRxisr l).sp = 0 from hsp, hread]
  simp [State.complete, State.afterRxisr]

theorem wrblkStep_commutes {s u : State} (hr : s.eng.swrstPending = false) (h : wrblkStep s = .next u) :
    CommutesWithRxisr wrblkStep s u := by
  rcases wrblkStep_cases h with ⟨hsp, rfl⟩ | ⟨hsp, rfl⟩
  · obtain ⟨es, hlog, hread⟩ := readDre_afterRxisr hr
    refine ⟨es, by simp [State.gotoStep, hlog], fun l => ?_⟩
    rw [wrblkStep, show (s.afterRxisr l).sp = 0 from hsp, hread]
    rfl
  · obtain ⟨es, hlog, hwrite⟩ := writeData_afterRxisr hr s.bReg
    refine ⟨es ++ [.rsp false], by simp [State.complete, hlog], fun l => ?_⟩
    rw [wrblkStep, show (s.afterRxisr l).sp = 1 from hsp, show (s.afterRxisr l).bReg = s.bReg from rfl, hwrite]
    simp [State.complete, State.afterRxisr]

theorem mainlineStep_commutes {i : Instr} {c : Cmd} {seq : State → Answer} {s u : State}
    (hi : s.isrSp = none) (hop : ∀ s : State, ∀ l, (s.afterRxisr l).loadOperands i = (s.loadOperands i).afterRxisr l)
    (hseq : ∀ u, seq s = .next u → CommutesWithRxisr seq s u) (h : mainlineStep i c seq s = .next u) :
    CommutesWithRxisr (mainlineStep i c seq) s u := by
  cases hc : s.cur with
  | none =>
    cases (mainlineStep_accept hi hc).symm.trans h
    refine ⟨[.cmd (encode i)], by simp [State.accept], fun l => ?_⟩
    rw [mainlineStep_accept (s := s.afterRxisr l) hi hc, State.accept, hop]
    rfl
  | some d =>
    by_cases hd : d = c
    · subst hd
      rw [mainlineStep_running hi hc] at h
      obtain ⟨es, hlog, hrun⟩ := hseq u h
      refine ⟨es, hlog, fun l => ?_⟩
      rw [mainlineStep_running (s := s.afterRxisr l) hi hc, hrun]
    · cases (mainlineStep_busy hc hd).symm.trans h
      refine ⟨[], (List.append_nil _).symm, fun l => ?_⟩
      rw [mainlineStep_busy (s := s.afterRxisr l) hc hd, List.append_nil]

theorem exec_byteExchange_commutes {s u : State} {i : Instr} {b : Byte} (hi : i = .rdyq ∨ i = .wrnb b ∨ i = .wrblk b)
    (hidle : s.isrSp = none) (hr : s.eng.swrstPending = false) (h : exec i s = .next u) :
    CommutesWithRxisr (exec i) s u := by
  rcases hi with rfl | rfl | rfl
  · exact mainlineStep_commutes hidle (fun _ _ => rfl) (fun _ => rdyqStep_commutes hr) h
  · exact mainlineStep_commutes hidle (fun _ _ => rfl) (fun _ => wrnbStep_commutes hr) h
  · exact mainlineStep_commutes hidle (fun _ _ => rfl) (fun _ => wrblkStep_commutes hr) h

/-- Settles O47: the ISR reads and writes the receive side alone, the byte exchange the transmit side alone. -/
theorem isrCommutesWithByteExchange : Obligations.IsrCommutesWithByteExchange := by
  unfold Obligations.IsrCommutesWithByteExchange
  intro s u i b hi hready h
  obtain ⟨⟨hx, hirq, hr⟩, hl, hidle⟩ := (dispatchReady_iff s).mp hready
  obtain ⟨es, hlog, hcomm⟩ := exec_byteExchange_commutes hi hidle hr h
  have hframe := (byteExchangeFrame s u i b hi h).1
  have hready' : u.dispatchReady = true := by
    rw [hframe]
    exact hready
  have hdata : u.eng.rxData = s.eng.rxData := by rw [hframe]
  refine ⟨_, _, _, es, rxisrEntries s.eng.rxData, execTimes_rxisr_afterRxisr hready, hcomm _,
    execTimes_rxisr_afterRxisr hready', hlog, rfl, rfl, ?_⟩
  rw [hlog, hdata]
  rfl

end Sys2Proof.Machine
end

section
/-! PROOF. What reads the platform (R48, R82, R101): the engine's own steps and the register transactions read none of it
nor `active`, and no agent reads the clocks. -/

namespace Sys2Proof.Machine

/-! ## Functions that ignore the platform -/

/-- `s` with another platform and Active Flag. -/
def State.withOwner (s : State) (pl : Platform) (a : Bool) : State := { s with plat := pl, active := a }

/-- `s` with the two clock bits given. -/
def State.withClocks (s : State) (b g : Bool) : State :=
  { s with plat := { s.plat with busClkOn := b, gclkRouted := g } }

/-- The operation neither reads nor writes the platform and `active`. -/
def IgnoresPlatform (f : State → State) : Prop := ∀ s pl a, f (s.withOwner pl a) = (f s).withOwner pl a

/-- The operation neither reads nor writes the clocks. -/
def IgnoresClocks (f : State → State) : Prop := ∀ s b g, f (s.withClocks b g) = (f s).withClocks b g

/-- The read neither reads nor writes the platform and `active`. -/
def ReadIgnoresPlatform {α : Type} (r : State → α × State) : Prop :=
  ∀ s pl a, r (s.withOwner pl a) = ((r s).1, (r s).2.withOwner pl a)

/-- The step does not read the clocks; it may turn one on. -/
def NoClockRead (step : State → Answer) : Prop :=
  ∀ s t b g, step s = .next t → ∃ b' g', step (s.withClocks b g) = .next (t.withClocks b' g')

section
variable {f g : State → State}

theorem IgnoresPlatform.keeps (hf : IgnoresPlatform f) (s : State) : (f s).plat = s.plat ∧ (f s).active = s.active := by
  have h : f s = (f s).withOwner s.plat s.active := hf s s.plat s.active
  exact ⟨(congrArg State.plat h).trans rfl, (congrArg State.active h).trans rfl⟩

theorem IgnoresPlatform.clocks (hf : IgnoresPlatform f) : IgnoresClocks f := by
  intro s b g
  obtain ⟨hp, ha⟩ := hf.keeps s
  refine (hf s { s.plat with busClkOn := b, gclkRouted := g } s.active).trans ?_
  simp only [State.withOwner, State.withClocks, hp, ← ha]

theorem IgnoresPlatform.ite {c : State → Bool} (hc : ∀ s pl a, c (s.withOwner pl a) = c s) (hf : IgnoresPlatform f)
    (hg : IgnoresPlatform g) : IgnoresPlatform fun s => if c s then f s else g s := by
  intro s pl a
  simp only [hc]
  split
  · exact hf s pl a
  · exact hg s pl a

theorem ReadIgnoresPlatform.ite {α : Type} {q r : State → α × State} {c : State → Bool}
    (hc : ∀ s pl a, c (s.withOwner pl a) = c s) (hq : ReadIgnoresPlatform q) (hr : ReadIgnoresPlatform r) :
    ReadIgnoresPlatform fun s => if c s then q s else r s := by
  intro s pl a
  simp only [hc]
  split
  · exact hq s pl a
  · exact hr s pl a

/-- An operation after a read, on the value read. -/
theorem ReadIgnoresPlatform.andThen {α : Type} {r : State → α × State} {k : α → State → State}
    (hr : ReadIgnoresPlatform r) (hk : ∀ v, IgnoresPlatform (k v)) : IgnoresPlatform fun s => k (r s).1 (r s).2 := by
  intro s pl a
  simp only [hr s pl a]
  exact hk _ _ pl a

theorem IgnoresClocks.noClockRead (hf : IgnoresClocks f) : NoClockRead fun s => .next (f s) := by
  rintro s t b g ⟨⟩
  exact ⟨b, g, congrArg Host.Outcome.next (hf s b g)⟩

end

/-! ## Reads -/

theorem enableValue_ignoresPlatform : ReadIgnoresPlatform State.enableValue :=
  .ite (fun _ _ _ => rfl) (fun _ _ _ => rfl) (fun _ _ _ => rfl)

theorem dreValue_ignoresPlatform : ReadIgnoresPlatform State.dreValue :=
  .ite (fun _ _ _ => rfl) (fun _ _ _ => rfl) (fun _ _ _ => rfl)

theorem readFlag_ignoresPlatform (entry : Bool → ReadEntry) {value : State → Bool × State}
    (hv : ReadIgnoresPlatform value) : ReadIgnoresPlatform (·.readFlag entry value) := by
  refine .ite (fun _ _ _ => rfl) (fun _ _ _ => rfl) fun s pl a => ?_
  simp only [hv s pl a]
  rfl

theorem readEnable_ignoresPlatform : ReadIgnoresPlatform State.readEnable :=
  readFlag_ignoresPlatform _ enableValue_ignoresPlatform

theorem readDre_ignoresPlatform : ReadIgnoresPlatform State.readDre := readFlag_ignoresPlatform _ dreValue_ignoresPlatform

theorem readRxc_ignoresPlatform : ReadIgnoresPlatform State.readRxc := readFlag_ignoresPlatform _ fun _ _ _ => rfl

theorem readData_ignoresPlatform : ReadIgnoresPlatform State.readData :=
  .ite (fun _ _ _ => rfl) (fun _ _ _ => rfl) (.ite (fun _ _ _ => rfl) (fun _ _ _ => rfl) fun _ _ _ => rfl)

/-! ## Writes -/

theorem write_ignoresPlatform (e : Event) (p : Bool) {effect : State → State} (hf : IgnoresPlatform effect) :
    IgnoresPlatform (·.write e p effect) :=
  .ite (fun _ _ _ => rfl) (fun _ _ _ => rfl)
    (.ite (c := fun u => p && u.eng.writeProtected) (fun _ _ _ => rfl) (fun _ _ _ => rfl) fun s => hf (s.emit e))

theorem startEnableSync_ignoresPlatform (v : Bool) : IgnoresPlatform (·.startEnableSync v) :=
  .ite (fun _ _ _ => rfl) (fun _ _ _ => rfl) (fun _ _ _ => rfl)

theorem startSwrst_ignoresPlatform : IgnoresPlatform State.startSwrst :=
  .ite (fun _ _ _ => rfl) (fun _ _ _ => rfl) (fun _ _ _ => rfl)

theorem applyCtrla_ignoresPlatform (w : CtrlaWrite) : IgnoresPlatform (·.applyCtrla w) :=
  have acted : IgnoresPlatform fun u => if w.enable != u.eng.enableApplied then u.startEnableSync w.enable
      else if w.swrst then u.startSwrst else u :=
    .ite (fun _ _ _ => rfl) (startEnableSync_ignoresPlatform _)
      (.ite (fun _ _ _ => rfl) startSwrst_ignoresPlatform fun _ _ _ => rfl)
  .ite (fun _ _ _ => rfl) (fun _ _ _ => rfl) fun s => acted { s with eng := { s.eng with ctrla := w.fields } }

theorem startCtrlbSync_ignoresPlatform (c : Ctrlb) : IgnoresPlatform (·.startCtrlbSync c) :=
  .ite (fun _ _ _ => rfl) (fun _ _ _ => rfl) (fun _ _ _ => rfl)

theorem fillTxHold_ignoresPlatform (b : Byte) : IgnoresPlatform (·.fillTxHold b) :=
  .ite (fun _ _ _ => rfl) (fun _ _ _ => rfl) (.ite (fun _ _ _ => rfl) (fun _ _ _ => rfl) fun _ _ _ => rfl)

theorem writeEnable_ignoresPlatform (v : Bool) : IgnoresPlatform (·.writeEnable v) :=
  write_ignoresPlatform _ _ (startEnableSync_ignoresPlatform v)

theorem writeSwrst_ignoresPlatform (v : Bool) : IgnoresPlatform (·.writeSwrst v) :=
  write_ignoresPlatform _ _ (.ite (fun _ _ _ => rfl) startSwrst_ignoresPlatform fun _ _ _ => rfl)

theorem writeCtrla_ignoresPlatform (w : CtrlaWrite) : IgnoresPlatform (·.writeCtrla w) :=
  write_ignoresPlatform _ _ (applyCtrla_ignoresPlatform w)

theorem writeBaud_ignoresPlatform (d : BitVec 16) : IgnoresPlatform (·.writeBaud d) :=
  write_ignoresPlatform _ _ fun _ _ _ => rfl

theorem writeCtrlb_ignoresPlatform (c : Ctrlb) : IgnoresPlatform (·.writeCtrlb c) :=
  write_ignoresPlatform _ _ (startCtrlbSync_ignoresPlatform c)

theorem writeIntenset_ignoresPlatform (v : Bool) : IgnoresPlatform (·.writeIntenset v) :=
  write_ignoresPlatform _ _ fun _ _ _ => rfl

theorem writeData_ignoresPlatform (b : Byte) : IgnoresPlatform (·.writeData b) :=
  write_ignoresPlatform _ _ (fillTxHold_ignoresPlatform b)

/-! ## Steps of the engine and of the line -/

theorem engSyncEnable_ignoresPlatform : IgnoresPlatform State.engSyncEnable := by
  intro s pl a
  rcases engSyncEnable_cases s with ⟨hp, h⟩ | ⟨v, hp, hv, h⟩ | ⟨b, hp, hb, h⟩
  · rw [h, engSyncEnable_none (by exact hp)]
  · rw [h, engSyncEnable_plain (by exact hp) (by exact hv)]
    rfl
  · rw [h, engSyncEnable_discard (by exact hp) (by exact hb)]
    rfl

theorem engSyncCtrlb_ignoresPlatform : IgnoresPlatform State.engSyncCtrlb := by
  intro s pl a
  rcases engSyncCtrlb_cases s with ⟨hp, h⟩ | ⟨c, hp, h⟩
  · rw [h, engSyncCtrlb_none (by exact hp)]
  · rw [h, engSyncCtrlb_some (by exact hp)]
    rfl

theorem engSwrstDone_ignoresPlatform : IgnoresPlatform State.engSwrstDone :=
  .ite (fun _ _ _ => rfl) (fun _ _ _ => rfl) (fun _ _ _ => rfl)

theorem engTx_ignoresPlatform : IgnoresPlatform State.engTx := by
  intro s pl a
  rcases engTx_cases s with ⟨ht, h⟩ | ⟨b, hb, ht, h⟩
  · rw [h, engTx_idle (by exact ht)]
  · rw [h, engTx_ready (by exact ht) (by exact hb)]
    rfl

theorem lineStep_ignoresPlatform : IgnoresPlatform State.lineStep := by
  intro s pl a
  rcases lineStep_cases s with ⟨hl | hr, h⟩ | ⟨b, rest, hl, hr, ⟨hx, h⟩ | ⟨hx, h⟩⟩
  · rw [h, State.lineStep, show (s.withOwner pl a).lineBytes = [] from hl]
  · rw [h, lineStep_idle (by exact hr)]
  · rw [h, lineStep_overflow (by exact hl) (by exact hr) (by exact hx)]
    rfl
  · rw [h, lineStep_store (by exact hl) (by exact hr) (by exact hx)]
    rfl

/-! ## The commands' numbered steps -/

theorem claimStep_noClockRead : NoClockRead claimStep := by
  intro s t b g h
  rcases claimStep_cases h with ⟨hsp, rfl⟩ | ⟨hsp, rfl⟩ | ⟨hsp, rfl⟩
  all_goals exact ⟨b, g, by simp only [claimStep, hsp, show (s.withClocks b g).sp = _ from hsp]; rfl⟩

theorem releaseStep_noClockRead : NoClockRead releaseStep := by
  intro s t b g h
  rcases releaseStep_cases h with ⟨hsp, rfl⟩ | ⟨hsp, rfl⟩ | ⟨hsp, rfl⟩
  all_goals exact ⟨b, g, by simp only [releaseStep, hsp, show (s.withClocks b g).sp = _ from hsp]; rfl⟩

theorem rdyqStep_noClockRead : NoClockRead rdyqStep := by
  intro s t b g h
  obtain ⟨hsp, rfl⟩ := rdyqStep_cases h
  have answered := (readDre_ignoresPlatform.andThen (k := fun v u => { u with qTmp := v }.complete v)
    fun _ _ _ _ => rfl).clocks s b g
  exact ⟨b, g, by simp only [rdyqStep, show (s.withClocks b g).sp = _ from hsp]; exact congrArg _ answered⟩

theorem wrnbStep_noClockRead : NoClockRead wrnbStep := by
  intro s t b g h
  obtain ⟨hsp, rfl⟩ := wrnbStep_cases h
  have written := (writeData_ignoresPlatform s.bReg).clocks s b g
  exact ⟨b, g, by
    simp only [wrnbStep, show (s.withClocks b g).sp = _ from hsp]
    exact congrArg (fun u => Host.Outcome.next (State.complete u false)) written⟩

theorem wrblkStep_noClockRead : NoClockRead wrblkStep := by
  intro s t b g h
  rcases wrblkStep_cases h with ⟨hsp, rfl⟩ | ⟨hsp, rfl⟩
  · have polled := (readDre_ignoresPlatform.andThen
      (k := fun v u => { u with qTmp := v }.gotoStep (if v then 1 else 0)) fun _ _ _ _ => rfl).clocks s b g
    exact ⟨b, g, by simp only [wrblkStep, show (s.withClocks b g).sp = _ from hsp]; exact congrArg _ polled⟩
  · have written := (writeData_ignoresPlatform s.bReg).clocks s b g
    exact ⟨b, g, by
      simp only [wrblkStep, show (s.withClocks b g).sp = _ from hsp]
      exact congrArg (fun u => Host.Outcome.next (State.complete u false)) written⟩

/-- A write and the step to `n`. -/
theorem gotoStep_clocks {s t : State} {b g : Bool} (h : t = s.withClocks b g) (n : Nat) :
    t.gotoStep n = (s.gotoStep n).withClocks b g := by
  rw [h]
  rfl

theorem configS0_ignoresClocks : IgnoresClocks configS0 := fun s =>
  (readEnable_ignoresPlatform.andThen (k := fun v u => { u with eTmp := v }.gotoStep 1) fun _ _ _ _ => rfl).clocks
    { s with seq := .disabled }

theorem configStep_noClockRead : NoClockRead configStep := by
  intro s t b g h
  have hsp : (s.withClocks b g).sp = s.sp := rfl
  have next {u v : State} (huv : u = v) : (.next u : Answer) = .next v := congrArg _ huv
  simp only [configStep, hsp] at h ⊢
  generalize s.sp = n at h ⊢
  split at h <;> cases h
  · exact ⟨b, g, next (configS0_ignoresClocks s b g)⟩
  · exact ⟨b, g, rfl⟩
  · exact ⟨b, g, rfl⟩
  · exact ⟨b, g, next (gotoStep_clocks ((writeEnable_ignoresPlatform false).clocks s b g) 4)⟩
  · exact ⟨b, g, rfl⟩
  · exact ⟨b, g, next (gotoStep_clocks ((writeSwrst_ignoresPlatform true).clocks s b g) 6)⟩
  · exact ⟨b, g, rfl⟩
  · exact ⟨b, g, rfl⟩
  · exact ⟨b, g, rfl⟩
  · exact ⟨b, g, rfl⟩
  · exact ⟨b, g, rfl⟩
  · exact ⟨true, g, rfl⟩
  · exact ⟨b, true, rfl⟩
  · exact ⟨b, g, next (gotoStep_clocks ((writeCtrla_ignoresPlatform (modeFraming s.params)).clocks s b g) 14)⟩
  · exact ⟨b, g, rfl⟩
  · exact ⟨b, g, next (gotoStep_clocks ((writeBaud_ignoresPlatform s.dp.dReg).clocks s b g) 16)⟩
  · exact ⟨b, g, next (gotoStep_clocks ((writeCtrlb_ignoresPlatform frameControl).clocks s b g) 17)⟩
  · exact ⟨b, g, rfl⟩
  · exact ⟨b, g, next (gotoStep_clocks ((writeIntenset_ignoresPlatform true).clocks s b g) 19)⟩
  · exact ⟨b, g, rfl⟩
  · exact ⟨b, g, next (gotoStep_clocks ((writeEnable_ignoresPlatform true).clocks { s with seq := .enabled } b g) 21)⟩
  · exact ⟨b, g, rfl⟩
  · exact ⟨b, g, rfl⟩

theorem sequenceOf_noClockRead (c : Cmd) : NoClockRead (sequenceOf c) := by
  cases c with
  | claim => exact claimStep_noClockRead
  | release => exact releaseStep_noClockRead
  | config => exact configStep_noClockRead
  | rdyq => exact rdyqStep_noClockRead
  | wrnb => exact wrnbStep_noClockRead
  | wrblk => exact wrblkStep_noClockRead

/-! ## The agents -/

theorem rxisrI0_ignoresPlatform : IgnoresPlatform rxisrI0 :=
  readRxc_ignoresPlatform.andThen (k := fun v u =>
      if v then { u with isrF := v, isrSp := some .i1 } else { u with isrF := v }.returnFromInterrupt)
    fun _ => .ite (fun _ _ _ => rfl) (fun _ _ _ => rfl) fun _ _ _ => rfl

theorem rxisrI1_ignoresPlatform : IgnoresPlatform rxisrI1 :=
  readData_ignoresPlatform.andThen (k := fun v u => { u with isrByte := v, isrSp := some .i2 }) fun _ _ _ _ => rfl

theorem rxisr_noClockRead : NoClockRead (exec .rxisr) := by
  intro s t b g h
  rcases rxisr_cases h with ⟨hi, hd, rfl⟩ | ⟨hi, hd, rfl⟩ | ⟨hi, rfl⟩ | ⟨hi, rfl⟩ | ⟨hi, rfl⟩
  · exact ⟨b, g, exec_rxisr_of_dispatchReady (s := s.withClocks b g) hd⟩
  · exact ⟨b, g, exec_rxisr_of_not_dispatchReady (s := t.withClocks b g) hi hd⟩
  all_goals refine ⟨b, g, ?_⟩; change execRxisr _ = _; simp only [execRxisr, show (s.withClocks b g).isrSp = _ from hi]
  · exact congrArg _ (rxisrI0_ignoresPlatform.clocks s b g)
  · exact congrArg _ (rxisrI1_ignoresPlatform.clocks s b g)
  · rfl

theorem mainlineStep_noClockRead {i : Instr} (c : Cmd) {seq : State → Answer} (hseq : NoClockRead seq) :
    NoClockRead (mainlineStep i c seq) := by
  intro s t b g h
  by_cases hi : s.isrSp = none
  · cases hc : s.cur with
    | none =>
      cases (mainlineStep_accept hi hc).symm.trans h
      refine ⟨b, g, (mainlineStep_accept (s := s.withClocks b g) hi hc).trans (congrArg _ ?_)⟩
      cases i <;> rfl
    | some d =>
      by_cases hd : d = c
      · subst hd
        rw [mainlineStep_running hi hc] at h
        rw [mainlineStep_running (s := s.withClocks b g) hi hc]
        exact hseq s t b g h
      · cases (mainlineStep_busy hc hd).symm.trans h
        exact ⟨b, g, mainlineStep_busy (s := s.withClocks b g) hc hd⟩
  · cases (mainlineStep_isr hi).symm.trans h
    exact ⟨b, g, mainlineStep_isr (s := s.withClocks b g) hi⟩

theorem exec_noClockRead (i : Instr) : NoClockRead (exec i) := by
  cases hc : cmdOf i with
  | none =>
    cases i <;> cases hc
    exact rxisr_noClockRead
  | some c =>
    intro s t b g h
    rw [exec_mainline hc] at *
    exact mainlineStep_noClockRead c (sequenceOf_noClockRead c) s t b g h

theorem present_noClockRead (p : Port) (w : Word40) : NoClockRead (present p w) := by
  intro s t b g h
  unfold present at *
  split at h
  · exact exec_noClockRead _ s t b g h
  · cases h
    exact ⟨b, g, rfl⟩

theorem hostMove_noClockRead : NoClockRead hostMove := by
  intro s t b g h
  have hwords : (s.withClocks b g).hostWords = s.hostWords := rfl
  unfold hostMove at h ⊢
  by_cases hp : s.portReady = true
  · have hp' : (s.withClocks b g).portReady = true := hp
    rw [if_pos hp] at h
    simp only [if_pos hp', hwords]
    split at h
    · cases h
      exact ⟨b, g, rfl⟩
    · exact present_noClockRead _ _ _ t b g h
  · have hp' : ¬ (s.withClocks b g).portReady = true := hp
    rw [if_neg hp] at h
    cases h
    exact ⟨b, g, if_neg hp'⟩

theorem mainlineMove_noClockRead : NoClockRead mainlineMove := by
  intro s t b g h
  have hrun (c : Cmd) : (s.withClocks b g).runningInstr c = s.runningInstr c := by cases c <;> rfl
  simp only [mainlineMove, show (s.withClocks b g).cur = s.cur from rfl, hrun] at h ⊢
  split at h
  · cases h
    exact ⟨b, g, rfl⟩
  · exact exec_noClockRead _ s t b g h

theorem runMove_noClockRead (m : Move) : NoClockRead (runMove m) := by
  cases m with
  | host => exact hostMove_noClockRead
  | mainline => exact mainlineMove_noClockRead
  | isr => exact present_noClockRead .dispatch rxisrWord
  | engSyncEnable => exact engSyncEnable_ignoresPlatform.clocks.noClockRead
  | engSyncCtrlb => exact engSyncCtrlb_ignoresPlatform.clocks.noClockRead
  | engSwrstDone => exact engSwrstDone_ignoresPlatform.clocks.noClockRead
  | engTx => exact engTx_ignoresPlatform.clocks.noClockRead
  | line => exact lineStep_ignoresPlatform.clocks.noClockRead

/-- Settles O20: each operation takes the branch it takes on any platform, and CONFIG's S11 and S12 alone write a clock. -/
theorem engineIgnoresPlatform : Obligations.EngineIgnoresPlatform := by
  unfold Obligations.EngineIgnoresPlatform
  refine ⟨fun m s pl a hm => ?_, fun m s t b g h => runMove_noClockRead m s t b g h⟩
  have answers {f : State → State} (hf : IgnoresPlatform f) : ∃ t : State,
      (.next (f s) : Answer) = .next t ∧ t.plat = s.plat ∧ t.active = s.active ∧
        (.next (f (s.withOwner pl a)) : Answer) = .next (t.withOwner pl a) :=
    ⟨f s, rfl, (hf.keeps s).1, (hf.keeps s).2, congrArg Host.Outcome.next (hf s pl a)⟩
  simp only [List.mem_cons, List.not_mem_nil, or_false] at hm
  rcases hm with rfl | rfl | rfl | rfl | rfl
  · exact answers engSyncEnable_ignoresPlatform
  · exact answers engSyncCtrlb_ignoresPlatform
  · exact answers engSwrstDone_ignoresPlatform
  · exact answers engTx_ignoresPlatform
  · exact answers lineStep_ignoresPlatform

end Sys2Proof.Machine
end

section
/-! PROOF. Progress under weak fairness (R73, R163): a move whose guard stays true is taken, so what is pending at the
engine completes, and a WRBLK gets through its polls however the ISR runs between them (R148). -/

namespace Sys2Proof.Machine

/-! ## A guard that stays true -/

section
variable {σ : Nat → Move} {s : State}

theorem runUnder_succ {n : Nat} {t : State} (h : runUnder σ s n = .next t) : runUnder σ s (n + 1) = runMove (σ n) t := by
  simp only [runUnder, h]

theorem runUnder_inv {n : Nat} {t : State} (hinv : s.Inv) (h : runUnder σ s n = .next t) : t.Inv := by
  induction n generalizing t with
  | zero =>
    cases h
    exact hinv
  | succ n ih =>
    simp only [runUnder] at h
    split at h
    case h_1 u hu => exact runMove_inv (ih hu) h
    all_goals cases h

/-- A move `m` of a fair agent, enabled while `P` holds, is taken, unless another move leads to `Q` before. -/
theorem eventually_of_fair {P Q : State → Prop} {m : Move} (hinv : s.Inv) (hfair : WeaklyFair σ s) (hm : m ∈ fairMoves)
    (henabled : ∀ t : State, P t → m.enabled t = true)
    (hstays : ∀ (m' : Move) (t u : State), t.Inv → P t → runMove m' t = .next u → P u ∨ Q u)
    (htaken : ∀ t u : State, t.Inv → P t → runMove m t = .next u → Q u) {n : Nat} {t : State}
    (ht : runUnder σ s n = .next t) (hP : P t) : ∃ k u, runUnder σ s k = .next u ∧ Q u := by
  by_contra hnever
  have hP' (d : Nat) : ∃ u, runUnder σ s (n + d) = .next u ∧ P u := by
    induction d with
    | zero => exact ⟨t, ht, hP⟩
    | succ d ih =>
      obtain ⟨u, hu, hPu⟩ := ih
      have huinv := runUnder_inv hinv hu
      obtain ⟨v, hv⟩ := runMove_answers huinv (σ (n + d))
      have hrun := (runUnder_succ hu).trans hv
      rcases hstays _ u v huinv hPu hv with hPv | hQv
      · exact ⟨v, hrun, hPv⟩
      · exact absurd ⟨_, v, hrun, hQv⟩ hnever
  obtain ⟨k, hk, hmove⟩ := hfair m hm n
  obtain ⟨d, rfl⟩ := Nat.exists_eq_add_of_le hk
  obtain ⟨u, hu, hPu⟩ := hP' d
  rcases hmove with rfl | ⟨v, hv, hoff⟩
  · obtain ⟨w, hw⟩ := runMove_answers (runUnder_inv hinv hu) (σ (n + d))
    exact hnever ⟨_, w, (runUnder_succ hu).trans hw, htaken u w (runUnder_inv hinv hu) hPu hw⟩
  · cases hu.symm.trans hv
    cases (henabled u hPu).symm.trans hoff

end

/-! ## The engine completes what is pending -/

section
variable {s t : State} {m : Move}

/-- A pending CTRLB finds the engine disabled: it is the one of S16. -/
theorem State.Inv.notEnabled_of_pendCtrlb {c : Ctrlb} (hinv : s.Inv) (h : s.eng.pendCtrlb = some c) : s.NotEnabled := by
  obtain ⟨hc, hn, _⟩ := hinv.of_pendCtrlb h
  obtain ⟨_, _, _, hne, _⟩ : s.Programmed ∧ s.seq = .configuring ∧ s.Routed ∧ s.NotEnabled ∧
    (s.eng.pendCtrlb = some frameControl ∨ s.Controlled) := hinv.configPhase hc hn
  exact hne

theorem ByteFrame.ctrlb_eq (h : ByteFrame s t) : t.eng.ctrlb = s.eng.ctrlb := by
  rw [h]

theorem sequenceOf_ctrlb {c : Cmd} (h : sequenceOf c s = .next t) : t.eng.ctrlb = s.eng.ctrlb := by
  cases c with
  | claim => exact congrArg Engine.ctrlb (claimStep_frame h).eng_eq
  | release => exact congrArg Engine.ctrlb (releaseStep_frame h).eng_eq
  | config =>
    obtain ⟨⟨_, _, _, _, hctrlb⟩, _⟩ := configStep_access h
    exact hctrlb
  | rdyq => exact (rdyqStep_frame h).1.ctrlb_eq
  | wrnb => exact (wrnbStep_frame h).ctrlb_eq
  | wrblk => exact (wrblkStep_frame h).ctrlb_eq

/-- While the engine is enabled its CTRLB does not change, unless a reset disables it. -/
theorem runMove_ctrlb (hinv : s.Inv) (hen : s.eng.enableApplied = true) (h : runMove m s = .next t) :
    t.eng.ctrlb = s.eng.ctrlb ∨ t.eng.enableApplied = false := by
  rcases runMove_cases h with rfl | ⟨_, _, w, rest, i, c, _, _, _, rfl⟩ | ⟨_, _, w, rest, e, _, _, rfl⟩ |
    ⟨_, _, c, _, hseq⟩ | ⟨_, hisr⟩ | ⟨_, rfl⟩ | ⟨_, rfl⟩ | ⟨_, rfl⟩ | ⟨_, rfl⟩ | ⟨_, rfl⟩
  · exact .inl rfl
  · exact .inl (congrArg Engine.ctrlb (accept_eng _ i c))
  · exact .inl rfl
  · exact .inl (sequenceOf_ctrlb hseq)
  · exact .inl (by rw [(rxisr_frame hisr).1])
  · rcases engSyncEnable_cases s with ⟨_, h⟩ | ⟨_, _, _, h⟩ | ⟨_, _, _, h⟩
    all_goals rw [h]; exact .inl rfl
  · rcases engSyncCtrlb_cases s with ⟨_, h⟩ | ⟨_, hp, _⟩
    · exact .inl (by rw [h])
    · cases hen.symm.trans (hinv.notEnabled_of_pendCtrlb hp).2
  · rcases engSwrstDone_cases s with ⟨_, h⟩ | ⟨_, h⟩
    · exact .inl (by rw [h])
    · exact .inr (by rw [h]; rfl)
  · rcases engTx_cases s with ⟨_, h⟩ | ⟨_, _, _, h⟩
    all_goals rw [h]; exact .inl rfl
  · rcases lineStep_cases s with ⟨_, h⟩ | ⟨_, _, _, _, ⟨_, h⟩ | ⟨_, h⟩⟩
    all_goals rw [h]; exact .inl rfl

/-- A byte waits in the holding register of a transmitter that is on. -/
def State.Sending (s : State) : Prop :=
  s.eng.txHold.isSome = true ∧ s.eng.enableApplied = true ∧ s.eng.ctrlb.txen = true

theorem State.Sending.txReady (h : s.Sending) : s.eng.txReady = true := (txReady_iff _).mpr ⟨h.2.1, h.2.2, h.1⟩

theorem runMove_sending (hinv : s.Inv) (hs : s.Sending) (h : runMove m s = .next t) :
    t.Sending ∨ t.eng.txHold = none ∨ t.eng.enableApplied = false := by
  obtain ⟨_, hen, htx⟩ := hs
  cases hhold : t.eng.txHold with
  | none => exact .inr (.inl rfl)
  | some b =>
    cases hen' : t.eng.enableApplied with
    | false => exact .inr (.inr rfl)
    | true =>
      have hctrlb := (runMove_ctrlb hinv hen h).resolve_right (by simp [hen'])
      exact .inl ⟨by simp [hhold], hen', hctrlb ▸ htx⟩

end

/-- Settles O53: each guard stays true until its move is taken or what it waits for has come about. -/
theorem fairEngineCompletes : Obligations.FairEngineCompletes := by
  unfold Obligations.FairEngineCompletes
  intro σ s hinv hfair
  refine ⟨fun h => ?_, fun h => ?_, fun h => ?_, fun hhold hen htx => ?_⟩
  · refine eventually_of_fair (P := fun t => t.eng.pendEnable.isSome = true) (m := .engSyncEnable) hinv hfair (by decide)
      (fun _ h => h) (fun _ _ u _ _ _ => ?_) (fun t u _ hp hu => ?_) (n := 0) rfl h
    · cases hp : u.eng.pendEnable <;> simp
    · cases hu
      rcases engSyncEnable_cases t with ⟨h, _⟩ | ⟨_, _, _, h⟩ | ⟨_, _, _, h⟩
      · simp [h] at hp
      all_goals rw [h]
  · refine eventually_of_fair (P := fun t => t.eng.pendCtrlb.isSome = true) (m := .engSyncCtrlb) hinv hfair (by decide)
      (fun _ h => h) (fun _ _ u _ _ _ => ?_) (fun t u _ hp hu => ?_) (n := 0) rfl h
    · cases hp : u.eng.pendCtrlb <;> simp
    · cases hu
      rcases engSyncCtrlb_cases t with ⟨h, _⟩ | ⟨_, _, h⟩
      · simp [h] at hp
      · rw [h]
  · refine eventually_of_fair (P := fun t => t.eng.swrstPending = true) (m := .engSwrstDone) hinv hfair (by decide)
      (fun _ h => h) (fun _ _ u _ _ _ => ?_) (fun t u _ hp hu => ?_) (n := 0) rfl h
    · cases u.eng.swrstPending <;> simp
    · cases hu
      rw [engSwrstDone_pending hp]
      rfl
  · refine eventually_of_fair (P := State.Sending) (m := .engTx) hinv hfair (by decide) (fun _ h => h.txReady)
      (fun _ _ _ hinv hs h => runMove_sending hinv hs h) (fun t u _ hs hu => ?_) (n := 0) rfl ⟨hhold, hen, htx⟩
    cases hu
    obtain ⟨b, hb⟩ := Option.isSome_iff_exists.mp hs.1
    rw [engTx_ready hs.txReady hb]
    exact .inl rfl

end Sys2Proof.Machine
end

section
/-! PROOF. WRBLK terminates (R148): the byte that fills `tx_hold` is sent, the ISR has only so much work between two of its
steps, and then the poll reads 1 and the write is made. -/

namespace Sys2Proof.Machine

section
variable {s t u : State} {m : Move} {b : Byte}

/-! ## The work of the ISR -/

/-- The ISR's steps that are left for the byte in `rx_data` and the one it has at hand. -/
def isrRest (isrSp : Option IsrStep) (rxc : Bool) : Nat :=
  match isrSp with
  | none => if rxc then 4 else 0
  | some .i0 => 3
  | some .i1 => 2
  | some .i2 => if rxc then 5 else 1

/-- A bound on the ISR's steps that are left: four for each byte, and one for each arrival. -/
def State.isrWork (s : State) : Nat := 5 * s.lineBytes.length + isrRest s.isrSp s.eng.rxc

/-- An arrival adds less work than the byte on the line stood for. -/
theorem isrRest_le_arrival (i : Option IsrStep) (x : Bool) : isrRest i true ≤ isrRest i x + 4 := by
  cases i with
  | none => cases x <;> decide
  | some i => cases i <;> cases x <;> decide

/-- `t` stands where `s` does with the byte it is to write, and the ISR has done some of its work or not moved. -/
structure Waits (s t : State) : Prop where
  cur : t.cur = s.cur
  sp : t.sp = s.sp
  bReg : t.bReg = s.bReg
  txHold : t.eng.txHold = s.eng.txHold
  transmitterOn : t.eng.transmitterOn = s.eng.transmitterOn
  work : t.isrWork < s.isrWork ∨ t.isrWork = s.isrWork ∧ t.isrSp = s.isrSp

theorem Waits.refl (s : State) : Waits s s := ⟨rfl, rfl, rfl, rfl, rfl, .inr ⟨rfl, rfl⟩⟩

/-- A step of the ISR that has one does some of its work. -/
theorem rxisr_isrWork_lt (hinv : s.Inv) (hen : Move.isr.enabled s = true) (h : exec .rxisr s = .next t) :
    Waits s t ∧ t.isrWork < s.isrWork := by
  have worked (hcur : t.cur = s.cur) (hsp : t.sp = s.sp) (hb : t.bReg = s.bReg) (hhold : t.eng.txHold = s.eng.txHold)
      (hon : t.eng.transmitterOn = s.eng.transmitterOn) (hlt : t.isrWork < s.isrWork) :
      Waits s t ∧ t.isrWork < s.isrWork := ⟨⟨hcur, hsp, hb, hhold, hon, .inl hlt⟩, hlt⟩
  rcases rxisr_cases h with ⟨hi, hd, rfl⟩ | ⟨hi, hd, rfl⟩ | ⟨hi, _⟩ | ⟨hi, _⟩ | ⟨hi, _⟩
  · obtain ⟨⟨hx, _⟩, _⟩ := (dispatchReady_iff s).mp hd
    exact worked rfl rfl rfl rfl rfl (by simp [State.isrWork, isrRest, hi, hx])
  · simp [Move.enabled, hi, hd] at hen
  · obtain ⟨hr, hx⟩ := hinv.isr_at_i0 hi
    cases (exec_rxisr_i0_full hi hr hx).symm.trans h
    exact worked rfl rfl rfl rfl rfl (by simp [State.isrWork, isrRest, hi])
  · obtain ⟨hr, hx, _⟩ := hinv.isr_at_i1 hi
    cases (exec_rxisr_i1 hi hr hx).symm.trans h
    exact worked rfl rfl rfl rfl rfl (by simp [State.isrWork, isrRest, hi])
  · cases (exec_rxisr_i2 hi).symm.trans h
    exact worked rfl rfl rfl rfl rfl (by cases hx : s.eng.rxc <;> simp [State.isrWork, isrRest, hi, hx])

theorem lineStep_waits (s : State) : Waits s s.lineStep := by
  rcases lineStep_cases s with ⟨_, h⟩ | ⟨b, rest, hl, _, ⟨hx, h⟩ | ⟨hx, h⟩⟩
  · rw [h]
    exact .refl s
  · rw [h]
    exact ⟨rfl, rfl, rfl, rfl, rfl, .inl (by simp [State.isrWork, hl])⟩
  · rw [h]
    refine ⟨rfl, rfl, rfl, rfl, rfl, .inl ?_⟩
    have := isrRest_le_arrival s.isrSp s.eng.rxc
    simp only [State.isrWork, hl, List.length_cons]
    omega

/-! ## The moves while a WRBLK runs -/

theorem runMove_mainline_wrblk (hc : s.cur = some .wrblk) : runMove .mainline s = exec (.wrblk s.bReg) s := by
  simp only [runMove, mainlineMove, hc]
  rfl

/-- While a WRBLK runs a move is its step, the drain, or leaves it where it stands. -/
theorem runMove_wrblk (hinv : s.Inv) (hc : s.cur = some .wrblk) (h : runMove m s = .next t) :
    (m = .mainline ∧ s.isrSp = none ∧ wrblkStep s = .next t) ∨
    (m = .engTx ∧ s.eng.txHold ≠ none ∧ t = s.engTx) ∨ Waits s t := by
  obtain ⟨hpe, hpc, hr⟩ : s.Quiet := commandPhase_quiet (by simp [hc]) hinv.command
  cases m with
  | host =>
    have hbusy : hostMove s = .next s := by simp [hostMove, State.portReady, hc]
    cases hbusy.symm.trans h
    exact .inr (.inr (.refl s))
  | mainline =>
    rw [runMove_mainline_wrblk hc] at h
    by_cases hi : s.isrSp = none
    · exact .inl ⟨rfl, hi, (exec_of_standsAt rfl ⟨hi, hc, rfl⟩).symm.trans h⟩
    · cases (mainlineStep_isr hi).symm.trans h
      exact .inr (.inr (.refl s))
  | isr =>
    cases hen : Move.isr.enabled s with
    | true => exact .inr (.inr (rxisr_isrWork_lt hinv hen h).1)
    | false =>
      obtain ⟨hi, hd⟩ : s.isrSp = none ∧ s.dispatchReady = false := by simpa [Move.enabled] using hen
      cases (exec_rxisr_of_not_dispatchReady hi hd).symm.trans h
      exact .inr (.inr (.refl s))
  | engSyncEnable =>
    cases h
    rw [engSyncEnable_none hpe]
    exact .inr (.inr (.refl s))
  | engSyncCtrlb =>
    cases h
    rw [engSyncCtrlb_none hpc]
    exact .inr (.inr (.refl s))
  | engSwrstDone =>
    cases h
    rw [engSwrstDone_idle hr]
    exact .inr (.inr (.refl s))
  | engTx =>
    cases h
    rcases engTx_cases s with ⟨_, h⟩ | ⟨_, hb, _, _⟩
    · rw [h]
      exact .inr (.inr (.refl s))
    · exact .inr (.inl ⟨rfl, by simp [hb], rfl⟩)
  | line =>
    cases h
    exact .inr (.inr (lineStep_waits s))

/-! ## From one step of the WRBLK to the next -/

/-- A WRBLK stands at step `n` with the byte `b` and the transmitter on, and `tx_hold` is empty. -/
structure State.Ready (s : State) (n : Nat) (b : Byte) : Prop where
  cur : s.cur = some .wrblk
  sp : s.sp = n
  bReg : s.bReg = b
  on : s.eng.transmitterOn = true
  empty : s.eng.txHold = none

theorem State.Ready.waits {n : Nat} (h : s.Ready n b) (hw : Waits s t) : t.Ready n b :=
  ⟨hw.cur.trans h.cur, hw.sp.trans h.sp, hw.bReg.trans h.bReg, hw.transmitterOn.trans h.on, hw.txHold.trans h.empty⟩

section
variable {σ : Nat → Move}

/-- The mainline agent gets its step: the ISR runs out of work. -/
theorem eventually_wrblkStep {n : Nat} {Q : State → Prop} (hinv : s.Inv) (hfair : WeaklyFair σ s)
    (hstep : ∀ t u : State, t.Inv → t.Ready n b → t.isrSp = none → wrblkStep t = .next u → Q u) {w k : Nat} {t : State}
    (hw : t.isrWork = w) (ht : runUnder σ s k = .next t) (hready : t.Ready n b) :
    ∃ j u, runUnder σ s j = .next u ∧ Q u := by
  induction w using Nat.strong_induction_on generalizing k t with
  | _ w ih =>
    -- With the ISR at one place and its work at `w`, the agent whose turn it is stays enabled.
    have turn (m : Move) (hm : m ∈ fairMoves) (i : Option IsrStep) (hi : t.isrSp = i)
        (henabled : ∀ t : State, t.Ready n b ∧ t.isrSp = i ∧ t.isrWork = w → m.enabled t = true)
        (htaken : ∀ t u : State, t.Inv → t.Ready n b ∧ t.isrSp = i ∧ t.isrWork = w → runMove m t = .next u →
          Q u ∨ u.Ready n b ∧ u.isrWork < w) : ∃ j u, runUnder σ s j = .next u ∧ (Q u ∨ u.Ready n b ∧ u.isrWork < w) := by
      refine eventually_of_fair hinv hfair hm henabled (fun m' t u htinv ⟨hr, hi, hw⟩ h => ?_) htaken ht ⟨hready, hi, hw⟩
      rcases runMove_wrblk htinv hr.cur h with ⟨_, hidle, hs⟩ | ⟨_, hfull, _⟩ | hwait
      · exact .inr (.inl (hstep t u htinv hr hidle hs))
      · exact absurd hr.empty hfull
      · rcases hwait.work with hlt | ⟨heq, hsame⟩
        · exact .inr (.inr ⟨hr.waits hwait, hw ▸ hlt⟩)
        · exact .inl ⟨hr.waits hwait, hsame.trans hi, heq.trans hw⟩
    have next : ∃ j u, runUnder σ s j = .next u ∧ (Q u ∨ u.Ready n b ∧ u.isrWork < w) := by
      cases hi : t.isrSp with
      | none =>
        refine turn .mainline (by decide) none hi (fun t ⟨hr, hi, _⟩ => by simp [Move.enabled, hr.cur, hi])
          fun t u htinv ⟨hr, hi, _⟩ h => ?_
        rw [runMove_mainline_wrblk hr.cur, exec_of_standsAt rfl ⟨hi, hr.cur, rfl⟩] at h
        exact .inl (hstep t u htinv hr hi h)
      | some i =>
        refine turn .isr (by decide) (some i) hi (fun t ⟨_, hi, _⟩ => by simp [Move.enabled, hi])
          fun t u htinv ⟨hr, hi, hw⟩ h => ?_
        obtain ⟨hwait, hlt⟩ := rxisr_isrWork_lt htinv (by simp [Move.enabled, hi]) h
        exact .inr ⟨hr.waits hwait, hw ▸ hlt⟩
    obtain ⟨j, u, hu, hQ | ⟨hr, hlt⟩⟩ := next
    · exact ⟨j, u, hu, hQ⟩
    · exact ih _ hlt rfl hu hr

/-- What the last step of a WRBLK leaves. -/
def State.Written (b : Byte) (s : State) : Prop :=
  s.cur = none ∧ s.rsp = some false ∧ s.eng.txHold = some b ∧ ∃ es, s.log = es ++ [.wr (.data b), .rsp false]

theorem wrblkStep_of_ready_one (hinv : t.Inv) (h : t.Ready 1 b) (hi : t.isrSp = none) (hs : wrblkStep t = .next u) :
    u.Written b := by
  obtain ⟨_, _, hr⟩ : t.Quiet := commandPhase_quiet (by simp [h.cur]) hinv.command
  have hstep := exec_wrblk_one_room b hr h.on h.empty ⟨hi, h.cur, h.sp⟩
  rw [exec_of_standsAt rfl ⟨hi, h.cur, h.sp⟩] at hstep
  cases hstep.symm.trans hs
  rw [h.bReg]
  exact ⟨rfl, rfl, rfl, _, rfl⟩

theorem wrblkStep_of_ready_zero (hinv : t.Inv) (h : t.Ready 0 b) (hi : t.isrSp = none) (hs : wrblkStep t = .next u) :
    u.Ready 1 b := by
  obtain ⟨_, _, hr⟩ : t.Quiet := commandPhase_quiet (by simp [h.cur]) hinv.command
  have hstep := exec_wrblk_zero_on b hr h.on ⟨hi, h.cur, h.sp⟩
  rw [exec_of_standsAt rfl ⟨hi, h.cur, h.sp⟩] at hstep
  cases hstep.symm.trans hs
  exact ⟨h.cur, if_pos h.empty, h.bReg, h.on, h.empty⟩

/-- While `tx_hold` is full a WRBLK stays at its polls, until the byte is sent. -/
def State.Polling (s : State) (b : Byte) : Prop :=
  s.cur = some .wrblk ∧ s.sp = 0 ∧ s.bReg = b ∧ s.eng.transmitterOn = true ∧ s.eng.txHold ≠ none

theorem engTx_of_polling (h : s.Polling b) : s.engTx.Ready 0 b := by
  obtain ⟨hc, hn, hb, hon, hfull⟩ := h
  obtain ⟨hen, _, htx⟩ := (transmitterOn_iff _).mp hon
  obtain ⟨prev, hhold⟩ := Option.ne_none_iff_exists'.mp hfull
  rw [engTx_ready ((txReady_iff _).mpr ⟨hen, htx, by simp [hhold]⟩) hhold]
  exact ⟨hc, hn, hb, hon, rfl⟩

theorem runMove_polling (hinv : s.Inv) (hp : s.Polling b) (h : runMove m s = .next t) : t.Polling b ∨ t.Ready 0 b := by
  have ⟨hc, hn, hb, hon, hfull⟩ := hp
  rcases runMove_wrblk hinv hc h with ⟨_, hi, hs⟩ | ⟨_, _, rfl⟩ | hwait
  · obtain ⟨_, _, hr⟩ : s.Quiet := commandPhase_quiet (by simp [hc]) hinv.command
    have hstep := exec_wrblk_zero_on b hr hon ⟨hi, hc, hn⟩
    rw [exec_of_standsAt rfl ⟨hi, hc, hn⟩] at hstep
    cases hstep.symm.trans hs
    exact .inl ⟨hc, if_neg hfull, hb, hon, hfull⟩
  · exact .inr (engTx_of_polling hp)
  · exact .inl ⟨hwait.cur.trans hc, hwait.sp.trans hn, hwait.bReg.trans hb, hwait.transmitterOn.trans hon,
      hwait.txHold ▸ hfull⟩

theorem eventually_sent (hinv : s.Inv) (hfair : WeaklyFair σ s) (hp : s.Polling b) :
    ∃ k t, runUnder σ s k = .next t ∧ t.Ready 0 b := by
  refine eventually_of_fair (P := fun t => t.Polling b) (m := .engTx) hinv hfair (by decide)
    (fun t ⟨_, _, _, hon, hfull⟩ => ?_) (fun _ _ _ hinv hp h => runMove_polling hinv hp h) (fun t u _ hp h => ?_)
    (n := 0) rfl hp
  · obtain ⟨hen, _, htx⟩ := (transmitterOn_iff _).mp hon
    exact (txReady_iff _).mpr ⟨hen, htx, Option.isSome_iff_ne_none.mpr hfull⟩
  · cases h
    exact engTx_of_polling hp

theorem eventually_written_of_ready_one (hinv : s.Inv) (hfair : WeaklyFair σ s) {k : Nat}
    (ht : runUnder σ s k = .next t) (h : t.Ready 1 b) : ∃ j u, runUnder σ s j = .next u ∧ u.Written b :=
  eventually_wrblkStep hinv hfair (fun _ _ => wrblkStep_of_ready_one) rfl ht h

theorem eventually_written_of_ready_zero (hinv : s.Inv) (hfair : WeaklyFair σ s) {k : Nat}
    (ht : runUnder σ s k = .next t) (h : t.Ready 0 b) : ∃ j u, runUnder σ s j = .next u ∧ u.Written b := by
  obtain ⟨j, u, hu, hready⟩ := eventually_wrblkStep hinv hfair (fun _ _ => wrblkStep_of_ready_zero) rfl ht h
  exact eventually_written_of_ready_one hinv hfair hu hready

end

end

/-- Settles O41: the byte that fills `tx_hold` is sent, then the poll reads 1, then the write is made. -/
theorem wrblkTerminates : Obligations.WrblkTerminates := by
  unfold Obligations.WrblkTerminates
  intro σ s hinv hfair hc hon
  have hphase : s.Quiet ∧ (s.sp = 0 ∨ s.sp = 1 ∧ s.WriteReady) := by
    have h := hinv.command
    rwa [hc] at h
  rcases hphase.2 with hn | ⟨hn, _, hroom⟩
  · by_cases hempty : s.eng.txHold = none
    · exact eventually_written_of_ready_zero hinv hfair (k := 0) rfl ⟨hc, hn, rfl, hon, hempty⟩
    · obtain ⟨k, t, ht, hready⟩ := eventually_sent hinv hfair ⟨hc, hn, rfl, hon, hempty⟩
      exact eventually_written_of_ready_zero hinv hfair ht hready
  · exact eventually_written_of_ready_one hinv hfair (k := 0) rfl ⟨hc, hn, rfl, hon, hroom hon⟩

end Sys2Proof.Machine
end

section
/-! PROOF. A whole CONFIG (R102, R121) on the schedule that completes each synchronisation right after the write that
starts it: what every step keeps, and the steps one after the other. -/

namespace Sys2Proof.Machine

/-- The write that triggers the engine reset (R107). -/
def resetTrigger : Event := .wf (.ctrlaSwrst true)

/-- Where a step of CONFIG at `n` goes when it finds nothing to wait for. -/
def State.configNext (s : State) (n : Nat) : Nat :=
  if n = 1 then (if s.eTmp then 2 else 4) else if n = 7 then (if s.cReg then 8 else 11) else n + 1

/-! ## One step -/

section
variable {s t u : State} {n : Nat}

/-- What a step of CONFIG at `n` that does not answer leaves alone, how often it logs the reset trigger, and where it goes
when nothing is pending. -/
structure PromptStep (n : Nat) (s t : State) : Prop where
  cReg : t.cReg = s.cReg
  rReg : t.rReg = s.rReg
  active : t.active = s.active ∨ n = 10
  entries : ∃ es, t.log = s.log ++ es ∧ es.count resetTrigger = if n = 5 then 1 else 0
  next : s.eng.syncEnable = false → s.eng.syncCtrlb = false → s.eng.swrstPending = false → t.sp = s.configNext n

/-- A step that logs nothing. -/
theorem PromptStep.of_silent (hn : n ≠ 5) (hc : t.cReg = s.cReg) (hr : t.rReg = s.rReg) (ha : t.active = s.active ∨ n = 10)
    (hlog : t.log = s.log) (hnext : t.sp = s.configNext n) : PromptStep n s t :=
  ⟨hc, hr, ha, ⟨[], by simp [hlog], by simp [hn]⟩, fun _ _ _ => hnext⟩

/-- A step that makes one entry: the call of a capability, or a read of `SYNCBUSY`, which waits or not. -/
theorem PromptStep.of_entry {e : Event} (hn : n ≠ 5) (he : e ≠ resetTrigger) (hc : t.cReg = s.cReg)
    (hr : t.rReg = s.rReg) (ha : t.active = s.active) (hlog : t.log = s.log ++ [e])
    (hnext : s.eng.syncEnable = false → s.eng.syncCtrlb = false → s.eng.swrstPending = false → t.sp = s.configNext n) :
    PromptStep n s t :=
  ⟨hc, hr, .inl ha, ⟨[e], hlog, by simp [hn, he]⟩, hnext⟩

/-- A step that makes one register access, after which the entries `es` stand. -/
theorem PromptStep.of_access {es : List Event} (hu : BusFrame s u) (hlog : u.log = s.log ++ es)
    (hcount : es.count resetTrigger = if n = 5 then 1 else 0) (h1 : n ≠ 1) (h7 : n ≠ 7) :
    PromptStep n s (u.gotoStep (n + 1)) := by
  have hc : u.cReg = s.cReg := by rw [hu]
  have hr : u.rReg = s.rReg := by rw [hu]
  have ha : u.active = s.active := by rw [hu]
  exact ⟨hc, hr, .inl ha, ⟨es, hlog, hcount⟩, fun _ _ _ => by simp [State.configNext, h1, h7]⟩

/-- A wait for the two synchronisations of CTRLA goes on when neither is in progress. -/
theorem pollNotBusy_sp (here next : Nat) (he : s.eng.syncEnable = false) (hr : s.eng.swrstPending = false) :
    (s.pollNotBusy here next).sp = next := by
  simp [State.pollNotBusy, State.readNotBusy, notBusy, he, hr]

theorem configS0_prompt (s : State) : PromptStep 0 s (configS0 s) := by
  rcases readEnable_cases { s with seq := .disabled } with ⟨_, h⟩ | ⟨_, _, h⟩ | ⟨_, _, h⟩
  all_goals
    unfold configS0
    simp only [h]
    exact ⟨rfl, rfl, .inl rfl, ⟨_, rfl, rfl⟩, fun _ _ _ => rfl⟩

theorem writeEnable_prompt (v : Bool) (h1 : n ≠ 1) (h5 : n ≠ 5) (h7 : n ≠ 7) :
    PromptStep n s ((s.writeEnable v).gotoStep (n + 1)) := by
  rcases writeEnable_cases s v with ⟨_, h⟩ | ⟨_, _, h⟩ | ⟨_, _, h⟩
  all_goals exact .of_access (busFrame_writeEnable s v) (congrArg State.log h) (by rw [if_neg h5]; rfl) h1 h7

theorem configS5_prompt (s : State) : PromptStep 5 s (configS5 s) := by
  rcases writeSwrst_cases s with ⟨_, h⟩ | ⟨_, _, h⟩ | ⟨_, _, h⟩
  all_goals exact .of_access (busFrame_writeSwrst s true) (congrArg State.log h) rfl (by decide) (by decide)

theorem configS13_prompt (s : State) : PromptStep 13 s (configS13 s) := by
  rcases writeCtrla_plain_cases s (modeFraming s.params).fields with ⟨_, h, _⟩ | ⟨_, _, h⟩
  all_goals exact .of_access (busFrame_writeCtrla s _) (congrArg State.log h) rfl (by decide) (by decide)

theorem configS15_prompt (s : State) : PromptStep 15 s (configS15 s) := by
  rcases writeBaud_cases s s.dp.dReg with ⟨_, h, _⟩ | ⟨_, _, h⟩
  all_goals exact .of_access (busFrame_writeBaud s _) (congrArg State.log h) rfl (by decide) (by decide)

theorem configS16_prompt (s : State) : PromptStep 16 s (configS16 s) := by
  rcases writeCtrlb_cases s frameControl with ⟨_, h, _⟩ | ⟨_, _, _, h⟩
  all_goals exact .of_access (busFrame_writeCtrlb s _) (congrArg State.log h) rfl (by decide) (by decide)

theorem configS18_prompt (s : State) : PromptStep 18 s (configS18 s) := by
  rcases writeIntenset_cases s true with ⟨_, h⟩ | ⟨_, h⟩
  all_goals exact .of_access (busFrame_writeIntenset s true) (congrArg State.log h) rfl (by decide) (by decide)

theorem configS20_prompt (s : State) : PromptStep 20 s (configS20 s) := by
  obtain ⟨hc, hr, ha, he, _⟩ := writeEnable_prompt (s := { s with seq := .enabled }) (n := 20) true (by decide)
    (by decide) (by decide)
  exact ⟨hc, hr, ha, he, fun _ _ _ => rfl⟩

theorem configStep_prompt (hn : s.sp = n) (hlast : n ≠ 22) (h : configStep s = .next t) : PromptStep n s t := by
  subst hn
  rcases configStep_cases h with ⟨hn, rfl⟩ | ⟨hn, rfl⟩ | ⟨hn, rfl⟩ | ⟨hn, rfl⟩ | ⟨hn, rfl⟩ | ⟨hn, rfl⟩ | ⟨hn, rfl⟩ |
    ⟨hn, rfl⟩ | ⟨hn, rfl⟩ | ⟨hn, rfl⟩ | ⟨hn, rfl⟩ | ⟨hn, rfl⟩ | ⟨hn, rfl⟩ | ⟨hn, rfl⟩ | ⟨hn, rfl⟩ | ⟨hn, rfl⟩ |
    ⟨hn, rfl⟩ | ⟨hn, rfl⟩ | ⟨hn, rfl⟩ | ⟨hn, rfl⟩ | ⟨hn, rfl⟩ | ⟨hn, rfl⟩ | ⟨hn, rfl⟩
  all_goals rw [hn]
  · exact configS0_prompt s
  · exact .of_silent (by decide) rfl rfl (.inl rfl) rfl rfl
  · exact .of_entry (by decide) (by nofun) rfl rfl rfl rfl fun he _ hr => pollNotBusy_sp 2 3 he hr
  · exact writeEnable_prompt false (by decide) (by decide) (by decide)
  · exact .of_entry (by decide) (by nofun) rfl rfl rfl rfl fun he _ hr => pollNotBusy_sp 4 5 he hr
  · exact configS5_prompt s
  · exact .of_entry (by decide) (by nofun) rfl rfl rfl rfl fun he _ hr => pollNotBusy_sp 6 7 he hr
  · exact .of_silent (by decide) rfl rfl (.inl rfl) rfl rfl
  · exact .of_entry (by decide) (by nofun) rfl rfl rfl rfl fun _ _ _ => rfl
  · exact .of_entry (by decide) (by nofun) rfl rfl rfl rfl fun _ _ _ => rfl
  · exact .of_silent (by decide) rfl rfl (.inr rfl) rfl rfl
  · exact .of_entry (by decide) (by nofun) rfl rfl rfl rfl fun _ _ _ => rfl
  · exact .of_entry (by decide) (by nofun) rfl rfl rfl rfl fun _ _ _ => rfl
  · exact configS13_prompt s
  · exact .of_silent (by decide) rfl rfl (.inl rfl) rfl rfl
  · exact configS15_prompt s
  · exact configS16_prompt s
  · exact .of_entry (by decide) (by nofun) rfl rfl rfl rfl fun _ hc _ => by
      simp [configS17, State.readSyncCtrlb, State.configNext, hc]
  · exact configS18_prompt s
  · exact .of_entry (by decide) (by nofun) rfl rfl rfl rfl fun _ _ _ => rfl
  · exact configS20_prompt s
  · exact .of_entry (by decide) (by nofun) rfl rfl rfl rfl fun he _ _ => by
      simp [configS21, State.readSyncEnable, State.configNext, he]
  · exact absurd hn hlast

end

end Sys2Proof.Machine
end

section
/-! PROOF. The run of O25: the state between two steps of a CONFIG on the prompt schedule, its moves, and the whole run. -/

namespace Sys2Proof.Machine

/-! ## Runs along a schedule -/

/-- As many steps as `l` has moves take `s` to `t`. -/
def RunsTo (l : List Move) (s t : State) : Prop := Host.Core.run Sys2Proof.core l.length s = .next t

section
variable {s t u : State}

theorem RunsTo.refl (s : State) : RunsTo [] s s := rfl

theorem RunsTo.cons {m : Move} {l : List Move} (h : step s = .next t) (ht : RunsTo l t u) : RunsTo (m :: l) s u := by
  unfold RunsTo at *
  simp only [List.length_cons, Host.Core.run, show Sys2Proof.core.step s = .next t from h]
  exact ht

theorem RunsTo.single (m : Move) (h : step s = .next t) : RunsTo [m] s t := .cons h (.refl t)

theorem RunsTo.append {l k : List Move} (h : RunsTo l s t) (ht : RunsTo k t u) : RunsTo (l ++ k) s u := by
  induction l generalizing s with
  | nil =>
    cases h
    exact ht
  | cons m l ih =>
    simp only [RunsTo, List.length_cons, Host.Core.run] at h
    split at h
    case h_1 v hv => exact .cons hv (ih h)
    all_goals cases h

end

/-- S5 is the step before the reset, S6 the wait for it. -/
theorem State.le_configNext_iff (s : State) (n : Nat) :
    (6 ≤ s.configNext n ↔ 5 ≤ n) ∧ (7 ≤ s.configNext n ↔ 6 ≤ n) := by
  unfold State.configNext
  split_ifs <;> omega

/-- A step of a CONFIG records no fault. -/
theorem not_mayRecord_of_config {s : State} (hc : s.cur = some .config) (f : FaultName) : ¬ s.MayRecord .mainline f := by
  cases f <;> simp [State.MayRecord, hc]

/-! ## The state between two steps -/

/-- A CONFIG that started in `s₀` with the operands `c` and `r`, with `ws` left to the host, stands at step `n` with the
moves `ms` to come. -/
structure Midway (s₀ : State) (c : Bool) (r : BitVec 32) (ws : List Word40) (n : Nat) (ms : List Move) (t : State) :
    Prop where
  clock : t.params.sysClkHz ≠ 0
  params : t.params = s₀.params
  inv : t.Inv
  stands : t.standsAt .config n
  cReg : t.cReg = c
  rReg : t.rReg = r
  hostWords : t.hostWords = ws
  sched : t.sched = ms
  faults : t.faults = s₀.faults
  unclaimed : c = false → t.active = s₀.active ∧ t.plat.txPinFn = s₀.plat.txPinFn ∧ t.plat.rxPinFn = s₀.plat.rxPinFn
  entries : ∃ es, t.log = s₀.log ++ es ∧ es.count resetTrigger = if 6 ≤ n then 1 else 0
  rxc : 7 ≤ n → t.eng.rxc = false

section
variable {s₀ t u : State} {c : Bool} {r : BitVec 32} {ws : List Word40} {n : Nat} {ms : List Move}

/-- At most steps nothing is pending at the engine; at the other four it may be. -/
theorem Midway.quiet (h : Midway s₀ c r ws n ms t) (hn : n ≠ 4 ∧ n ≠ 6 ∧ n ≠ 17 ∧ n ≠ 21) : t.Quiet := by
  obtain ⟨h4, h6, h17, h21⟩ := hn
  cases configPhase_engine (h.inv.configPhase h.stands.2.1 h.stands.2.2) with
  | before _ quiet => exact quiet
  | disabling hn => exact absurd hn h4
  | off _ off => exact off.1
  | resetting hn => exact absurd hn h6
  | fresh _ _ _ _ fresh => exact (off_of_freshEngine fresh).1
  | programmed _ _ programmed notEnabled ctrlb =>
    have controlled := ctrlb.resolve_left fun h => h17 h.1
    exact ⟨notEnabled.1, controlled.1, programmed.2.2.1⟩
  | enabling _ programmed controlled enable =>
    have enabled := enable.resolve_left fun h => h21 h.1
    exact ⟨enabled.1, controlled.1, programmed.2.2.1⟩

/-- Without `c` the pin steps S8 to S10 are skipped. -/
theorem Midway.skipsPins (h : Midway s₀ c r ws n ms t) (hc : c = false) : n ≠ 8 ∧ n ≠ 9 ∧ n ≠ 10 := by
  have hreg : t.cReg ≠ true := by simp [h.cReg, hc]
  have hphase := h.inv.configPhase h.stands.2.1 h.stands.2.2
  refine ⟨?_, ?_, ?_⟩ <;> rintro rfl
  · exact hreg hphase.2.2
  · exact hreg hphase.2.2.1
  · exact hreg hphase.2.2.1

/-- The mainline agent takes CONFIG's step. -/
theorem Midway.step_eq (h : Midway s₀ c r ws n (.mainline :: ms) t) : step t = configStep t.tick := by
  obtain ⟨hi, hc, hsp⟩ := h.stands
  have hmove : runMove .mainline t.tick = exec (.config t.cReg t.rReg) t.tick := by
    simp only [runMove, mainlineMove, show t.tick.cur = some .config from hc]
    rfl
  rw [step_eq_runMove h.clock, nextMove_cons h.sched, hmove, exec_of_standsAt (s := t.tick) rfl ⟨hi, hc, hsp⟩]
  rfl

/-- The mainline agent's step. -/
theorem Midway.mainline (h : Midway s₀ c r ws n (.mainline :: ms) t) (hq : t.Quiet) (hn : n ≠ 22) :
    ∃ u, step t = .next u ∧ configStep t.tick = .next u ∧ Midway s₀ c r ws (t.configNext n) ms u := by
  obtain ⟨hi, hc, hsp⟩ := h.stands
  obtain ⟨u, hu⟩ := step_answers h.inv h.clock
  have hrun := (runMove_of_step hu).2
  rw [nextMove_cons h.sched] at hrun
  have hseq : configStep t.tick = .next u := h.step_eq ▸ hu
  have huinv := runMove_inv h.inv.tick hrun
  have heffect := configStep_effect hseq
  have hframe := heffect.frame
  obtain ⟨hcReg, hrReg, hactive, ⟨es, hes, hcount⟩, hnext⟩ := configStep_prompt (s := t.tick) hsp hn hseq
  obtain ⟨⟨hrxc, _⟩, _⟩ := configStep_access hseq
  have hgo : u.sp = t.configNext n :=
    hnext ((h.inv.sync.1).trans (by rw [hq.1]; rfl)) ((h.inv.sync.2).trans (by rw [hq.2.1]; rfl)) hq.2.2
  have hcur : u.cur = some .config := by
    rcases heffect.flow with ⟨hcur, _⟩ | ⟨hlast, _⟩
    · exact hcur.trans hc
    · exact absurd (hsp.symm.trans hlast) hn
  have hfaults : u.faults = t.faults := by
    rcases (runMove_keeps h.inv.tick hrun).faults with hf | ⟨f, hf, _⟩
    · exact hf
    · exact absurd hf (not_mayRecord_of_config (s := t.tick) hc f)
  refine ⟨u, hu, hseq,
    { clock := by rw [hframe]; exact h.clock
      params := by rw [hframe]; exact h.params
      inv := huinv
      stands := ⟨by rw [hframe]; exact hi, hcur, hgo⟩
      cReg := hcReg.trans h.cReg
      rReg := hrReg.trans h.rReg
      hostWords := by rw [hframe]; exact h.hostWords
      sched := by rw [hframe]; exact congrArg List.tail h.sched
      faults := hfaults.trans h.faults
      unclaimed := fun hc' => ?_
      entries := ?_
      rxc := fun h7 => ?_ }⟩
  · obtain ⟨h8, h9, h10⟩ := h.skipsPins hc'
    obtain ⟨ha, htx, hrx⟩ := h.unclaimed hc'
    refine ⟨(hactive.resolve_right h10).trans ha, ?_⟩
    rcases heffect.plat with hp | ⟨hn', _⟩ | ⟨hn', _⟩ | ⟨_, hp⟩ | ⟨_, hp⟩ | ⟨_, hp⟩
    · rw [hp]
      exact ⟨htx, hrx⟩
    · exact absurd (hsp.symm.trans hn') h8
    · exact absurd (hsp.symm.trans hn') h9
    all_goals rw [hp]; exact ⟨htx, hrx⟩
  · obtain ⟨ds, hds, hdcount⟩ := h.entries
    refine ⟨ds ++ es, by rw [hes, ← List.append_assoc, ← hds]; rfl, ?_⟩
    rw [List.count_append, hdcount, hcount]
    simp only [(t.le_configNext_iff n).1]
    split_ifs <;> omega
  · by_cases h7' : 7 ≤ n
    · exact hrxc.trans (h.rxc h7')
    · -- Only S6 leads past S6, and the reset has just cleared the flag.
      obtain rfl : n = 6 := by
        have := (t.le_configNext_iff n).2.mp h7
        omega
      have hphase : u.configPhase 7 := huinv.configPhase hcur hgo
      exact rxc_of_freshEngine hphase.1

/-- The step of a synchronisation, which touches only the engine and sends at most the byte it discards. -/
theorem Midway.engine {m : Move} {es : List Event} (h : Midway s₀ c r ws n (m :: ms) t)
    (hmove : runMove m t.tick = .next u) (hframe : BusFrame t.tick u) (hfaults : u.faults = t.faults)
    (hrxc : u.eng.rxc = t.eng.rxc ∨ u.eng.rxc = false) (hlog : u.log = t.log ++ es) (hes : es.count resetTrigger = 0) :
    RunsTo [m] t u ∧ Midway s₀ c r ws n ms u := by
  have hstep : step t = .next u := by rw [step_eq_runMove h.clock, nextMove_cons h.sched, hmove]
  have hplat : u.plat = t.plat := hframe.plat_eq
  have hactive : u.active = t.active := by rw [hframe]; rfl
  obtain ⟨hi, hc, hsp⟩ := h.stands
  refine ⟨.single m hstep,
    { clock := by rw [hframe]; exact h.clock
      params := by rw [hframe]; exact h.params
      inv := runMove_inv h.inv.tick hmove
      stands := by rw [hframe]; exact h.stands
      cReg := by rw [hframe]; exact h.cReg
      rReg := by rw [hframe]; exact h.rReg
      hostWords := by rw [hframe]; exact h.hostWords
      sched := by rw [hframe]; exact congrArg List.tail h.sched
      faults := hfaults.trans h.faults
      unclaimed := fun hc' => by rw [hplat, hactive]; exact h.unclaimed hc'
      entries := ?_
      rxc := fun h7 => hrxc.elim (fun heq => heq.trans (h.rxc h7)) id }⟩
  obtain ⟨ds, hds, hdcount⟩ := h.entries
  exact ⟨ds ++ es, by rw [hlog, hds, List.append_assoc], by rw [List.count_append, hdcount, hes, Nat.add_zero]⟩

theorem Midway.engSyncEnable (h : Midway s₀ c r ws n (.engSyncEnable :: ms) t) (hn : n = 4 ∨ n = 21) :
    ∃ u, RunsTo [.engSyncEnable] t u ∧ Midway s₀ c r ws n ms u ∧ u.Quiet := by
  obtain ⟨_, hc, hsp⟩ := h.stands
  have hpending : t.eng.pendCtrlb = none ∧ t.eng.swrstPending = false := by
    rcases hn with rfl | rfl
    · obtain ⟨_, hr, hctrlb, _⟩ : (t.seq = .disabled ∨ t.seq = .resetting) ∧ t.eng.swrstPending = false ∧
        t.eng.pendCtrlb = none ∧ (t.eng.pendEnable = some false ∨ t.NotEnabled) := h.inv.configPhase hc hsp
      exact ⟨hctrlb, hr⟩
    · obtain ⟨programmed, _, _, controlled, _⟩ : t.Programmed ∧ t.seq = .enabled ∧ t.Routed ∧ t.Controlled ∧ _ :=
        h.inv.configPhase hc hsp
      exact ⟨controlled.1, programmed.2.2.1⟩
  have hframe := busFrame_engSyncEnable t.tick
  rcases engSyncEnable_cases t.tick with ⟨hp, heq⟩ | ⟨v, _, _, heq⟩ | ⟨b, _, _, heq⟩
  · obtain ⟨hrun, hmid⟩ := h.engine (es := []) rfl hframe (by rw [heq]; rfl) (.inl (by rw [heq]; rfl))
      (by rw [heq, List.append_nil]; rfl) rfl
    exact ⟨_, hrun, hmid, by rw [heq]; exact ⟨hp, hpending⟩⟩
  · obtain ⟨hrun, hmid⟩ := h.engine (es := []) rfl hframe (by rw [heq]; rfl) (.inl (by rw [heq]; rfl))
      (by rw [heq, List.append_nil]; rfl) rfl
    exact ⟨_, hrun, hmid, by rw [heq]; exact ⟨rfl, hpending⟩⟩
  · obtain ⟨hrun, hmid⟩ := h.engine rfl hframe (by rw [heq]; rfl) (.inl (by rw [heq]; rfl)) (by rw [heq]; rfl)
      (by split <;> rfl)
    exact ⟨_, hrun, hmid, by rw [heq]; exact ⟨rfl, hpending⟩⟩

theorem Midway.engSyncCtrlb (h : Midway s₀ c r ws 17 (.engSyncCtrlb :: ms) t) :
    ∃ u, RunsTo [.engSyncCtrlb] t u ∧ Midway s₀ c r ws 17 ms u ∧ u.Quiet := by
  obtain ⟨_, hc, hsp⟩ := h.stands
  obtain ⟨programmed, _, _, notEnabled, _⟩ : t.Programmed ∧ t.seq = .configuring ∧ t.Routed ∧ t.NotEnabled ∧ _ :=
    h.inv.configPhase hc hsp
  have hframe := busFrame_engSyncCtrlb t.tick
  rcases engSyncCtrlb_cases t.tick with ⟨hp, heq⟩ | ⟨_, _, heq⟩
  · obtain ⟨hrun, hmid⟩ := h.engine (es := []) rfl hframe (by rw [heq]; rfl) (.inl (by rw [heq]; rfl))
      (by rw [heq, List.append_nil]; rfl) rfl
    exact ⟨_, hrun, hmid, by rw [heq]; exact ⟨notEnabled.1, hp, programmed.2.2.1⟩⟩
  · obtain ⟨hrun, hmid⟩ := h.engine (es := []) rfl hframe (by rw [heq]; rfl) (.inl (by rw [heq]; rfl))
      (by rw [heq, List.append_nil]; rfl) rfl
    exact ⟨_, hrun, hmid, by rw [heq]; exact ⟨notEnabled.1, rfl, programmed.2.2.1⟩⟩

theorem Midway.engSwrstDone (h : Midway s₀ c r ws 6 (.engSwrstDone :: ms) t) :
    ∃ u, RunsTo [.engSwrstDone] t u ∧ Midway s₀ c r ws 6 ms u ∧ u.Quiet := by
  obtain ⟨_, hc, hsp⟩ := h.stands
  obtain ⟨notEnabled, hctrlb, _⟩ : t.NotEnabled ∧ t.eng.pendCtrlb = none ∧ _ := h.inv.configPhase hc hsp
  have hframe := busFrame_engSwrstDone t.tick
  rcases engSwrstDone_cases t.tick with ⟨hr, heq⟩ | ⟨_, heq⟩
  · obtain ⟨hrun, hmid⟩ := h.engine (es := []) rfl hframe (by rw [heq]; rfl) (.inl (by rw [heq]; rfl))
      (by rw [heq, List.append_nil]; rfl) rfl
    exact ⟨_, hrun, hmid, by rw [heq]; exact ⟨notEnabled.1, hctrlb, hr⟩⟩
  · obtain ⟨hrun, hmid⟩ := h.engine (es := []) rfl hframe (by rw [heq]; rfl) (.inr (by rw [heq]; rfl))
      (by rw [heq, List.append_nil]; rfl) rfl
    exact ⟨_, hrun, hmid, by rw [heq]; exact ⟨rfl, rfl, rfl⟩⟩

/-! ## The run -/

/-- A mainline step to the next number, as `RunsTo` has it. -/
theorem Midway.goesOn (h : Midway s₀ c r ws n (.mainline :: ms) t) (hq : t.Quiet) (hn : n ∉ [1, 7, 22]) :
    ∃ u, RunsTo [.mainline] t u ∧ Midway s₀ c r ws (n + 1) ms u := by
  simp only [List.mem_cons, List.not_mem_nil, or_false, not_or] at hn
  obtain ⟨h1, h7, h22⟩ := hn
  obtain ⟨u, hu, _, hmid⟩ := h.mainline hq h22
  rw [State.configNext, if_neg h1, if_neg h7] at hmid
  exact ⟨u, .single _ hu, hmid⟩

/-- Steps that neither wait nor branch. -/
theorem Midway.straight (j : Nat) (h : Midway s₀ c r ws n (List.replicate j .mainline ++ ms) t)
    (hn : ∀ i, n ≤ i → i < n + j → i ∉ [1, 4, 6, 7, 17, 21, 22]) :
    ∃ u, RunsTo (List.replicate j .mainline) t u ∧ Midway s₀ c r ws (n + j) ms u := by
  induction j generalizing n t with
  | zero => exact ⟨t, .refl t, h⟩
  | succ j ih =>
    have hfirst := hn n le_rfl (by omega)
    simp only [List.mem_cons, List.not_mem_nil, or_false, not_or] at hfirst
    obtain ⟨h1, h4, h6, h7, h17, h21, h22⟩ := hfirst
    rw [List.replicate_succ, List.cons_append] at h
    obtain ⟨u, hu, hmid⟩ := h.goesOn (h.quiet ⟨h4, h6, h17, h21⟩) (by simp [h1, h7, h22])
    obtain ⟨v, hv, hlast⟩ := ih hmid fun i hi hlt => hn i (by omega) (by omega)
    refine ⟨v, hu.append hv, ?_⟩
    rwa [Nat.add_right_comm] at hlast

/-- S2 and S3 and the synchronisation of the disable, of an engine that is enabled. -/
theorem Midway.disable (e : Bool)
    (h : Midway s₀ c r ws (if e then 2 else 4)
      ((if e then [.mainline, .mainline, .engSyncEnable] else []) ++ ms) t) (hq : t.Quiet) :
    ∃ u, RunsTo (if e then [.mainline, .mainline, .engSyncEnable] else []) t u ∧ Midway s₀ c r ws 4 ms u ∧ u.Quiet := by
  cases e with
  | false => exact ⟨t, .refl t, h, hq⟩
  | true =>
    obtain ⟨u, hu, hmid⟩ := Midway.straight (n := 2) (ms := .engSyncEnable :: ms) 2 h (by
      intro i hi hlt
      interval_cases i <;> decide)
    obtain ⟨v, hv, hlast, hquiet⟩ := hmid.engSyncEnable (.inl rfl)
    exact ⟨v, hu.append hv, hlast, hquiet⟩

/-- S8 to S10, with `c`. -/
theorem Midway.claim
    (h : Midway s₀ c r ws (if c then 8 else 11) ((if c then [.mainline, .mainline, .mainline] else []) ++ ms) t) :
    ∃ u, RunsTo (if c then [.mainline, .mainline, .mainline] else []) t u ∧ Midway s₀ c r ws 11 ms u := by
  cases c with
  | false => exact ⟨t, .refl t, h⟩
  | true =>
    exact Midway.straight (n := 8) 3 h (by
      intro i hi hlt
      interval_cases i <;> decide)

end
end Sys2Proof.Machine
end

section
/-! PROOF. The whole CONFIG run (R102, R121): from the acceptance to the answer. -/

namespace Sys2Proof.Machine

section
variable {s t : State} {c : Bool} {r : BitVec 32} {ws : List Word40} {ms : List Move}

/-- The host's word is accepted, and CONFIG stands at S0. -/
theorem config_accepted (hf : s.params.sysClkHz ≠ 0) (hinv : s.Inv) (hidle : s.idle)
    (hw : s.hostWords = encode (.config c r) :: ws) (hsched : s.sched = .host :: ms) :
    ∃ t, RunsTo [.host] s t ∧ Midway s c r ws 0 ms t ∧ t.eng = s.eng := by
  have hrun : step s = .next (State.accept { s with sched := s.sched.tail, hostWords := ws } (.config c r) .config) :=
    (step_host hf (nextMove_cons hsched) hidle hw (decode_encode (.config c r))).trans (exec_of_idle rfl hidle)
  exact ⟨_, .single _ hrun,
    { clock := hf
      params := rfl
      inv := stepKeepsInvariant _ _ hinv hrun
      stands := ⟨hidle.2, rfl, rfl⟩
      cReg := rfl
      rReg := rfl
      hostWords := rfl
      sched := congrArg List.tail hsched
      faults := rfl
      unclaimed := fun _ => ⟨rfl, rfl, rfl⟩
      entries := ⟨_, rfl, rfl⟩
      rxc := nofun }, rfl⟩

/-- S0 reads the enable and S1 branches on it. -/
theorem Midway.readsEnable (h : Midway s c r ws 0 (.mainline :: .mainline :: ms) t) :
    ∃ u, RunsTo [.mainline, .mainline] t u ∧ Midway s c r ws (if t.eng.enableApplied then 2 else 4) ms u ∧ u.Quiet := by
  obtain ⟨u, hu, hseq, hfirst⟩ := h.mainline (h.quiet (by decide)) (by decide)
  have hmid : Midway s c r ws 1 (.mainline :: ms) u := hfirst
  obtain ⟨⟨_, _, _, henable, _⟩, _⟩ := configStep_access hseq
  have hread : u.eTmp = u.eng.enableApplied :=
    (hmid.inv.configPhase hmid.stands.2.1 hmid.stands.2.2).2.1
  have hquiet : u.Quiet := hmid.quiet (by decide)
  obtain ⟨v, hv, hbranch, hlast⟩ := hmid.mainline hquiet (by decide)
  have hnext : u.configNext 1 = if t.eng.enableApplied then 2 else 4 := by
    rw [State.configNext, if_pos rfl, hread, henable]
    rfl
  have hv' : v = configS1 u.tick := by
    have hsp : u.tick.sp = 1 := hmid.stands.2.2
    simp only [configStep, hsp] at hbranch
    exact (Host.Outcome.next.inj hbranch).symm
  refine ⟨v, .cons hu (.single _ hv), hnext ▸ hlast, ?_⟩
  rw [hv']
  exact hquiet

/-- What a CONFIG with the operands `c` and `r` leaves when it has answered. -/
def ConfigPost (s : State) (c : Bool) (r : BitVec 32) (ws : List Word40) (ms : List Move) (t : State) : Prop :=
  t.idle ∧ t.hostWords = ws ∧ t.sched = ms ∧ t.rsp = some false ∧ t.seq = .enabled ∧ t.faults = s.faults ∧
    t.cReg = c ∧ t.rReg = r ∧
    t.eng.enableApplied = true ∧ t.Quiet ∧ t.eng.ctrla = (modeFraming s.params).fields ∧
    t.eng.baud = t.divisor ∧ t.eng.ctrlb = frameControl ∧
    t.eng.intenRxc = true ∧ t.eng.rxc = false ∧ t.eng.txHold = none ∧
    t.plat.busClkOn = true ∧ t.plat.gclkRouted = true ∧ t.plat.lineUnmasked = true ∧
    (c = true → t.active = true ∧ t.pinsAreUart) ∧
    (c = false → t.active = s.active ∧ t.plat.txPinFn = s.plat.txPinFn ∧ t.plat.rxPinFn = s.plat.rxPinFn) ∧
    ∃ es, t.log = s.log ++ es ∧ es.count resetTrigger = 1 ∧ es.getLast? = some (.rsp false)

/-- S22 answers. -/
theorem Midway.answers (h : Midway s c r ws 22 (.mainline :: ms) t) :
    ∃ u, RunsTo [.mainline] t u ∧ ConfigPost s c r ws ms u := by
  obtain ⟨hi, hc, hsp⟩ := h.stands
  obtain ⟨⟨hctrla, hbaud, hr, hempty⟩, hseq, ⟨hactive, hbus, hgclk⟩, ⟨hp, hctrlb⟩, hirq, hline, hpe, he⟩ :
    t.Programmed ∧ t.seq = .enabled ∧ t.Routed ∧ t.Controlled ∧ t.eng.intenRxc = true ∧
      t.plat.lineUnmasked = true ∧ t.eng.pendEnable = none ∧ t.eng.enableApplied = true := h.inv.configPhase hc hsp
  have hstep : step t = .next (t.tick.complete false) := by
    have hsp' : t.tick.sp = 22 := hsp
    rw [h.step_eq]
    simp only [configStep, hsp', configS22]
  refine ⟨_, .single _ hstep, ⟨rfl, hi⟩, h.hostWords, congrArg List.tail h.sched, rfl, hseq, h.faults, h.cReg, h.rReg,
    he, ⟨hpe, hp, hr⟩, h.params ▸ hctrla, hbaud, hctrlb, hirq, h.rxc (by decide), hempty, hbus, hgclk, hline,
    fun hc' => ?_, h.unclaimed, ?_⟩
  · have hown := hactive (h.cReg.trans hc')
    exact ⟨hown, h.inv.pins hown⟩
  · obtain ⟨es, hes, hcount⟩ := h.entries
    refine ⟨es ++ [.rsp false], ?_, ?_, List.getLast?_concat⟩
    · rw [← List.append_assoc, ← hes]
      rfl
    · rw [List.count_append, hcount]
      rfl

/-- The moves of the schedule one after the other. -/
theorem config_runs (hf : s.params.sysClkHz ≠ 0) (hinv : s.Inv) (hidle : s.idle)
    (hw : s.hostWords = encode (.config c r) :: ws) (hsched : s.sched = configMoves s.eng.enableApplied c ++ ms) :
    ∃ t, RunsTo (configMoves s.eng.enableApplied c) s t ∧ ConfigPost s c r ws ms t := by
  unfold configMoves at *
  simp only [List.append_assoc] at hsched
  obtain ⟨t₀, run₀, h₀, heng⟩ := config_accepted hf hinv hidle hw hsched
  obtain ⟨t₁, run₁, h₁, hq₁⟩ := h₀.readsEnable
  rw [heng] at h₁
  obtain ⟨t₂, run₂, h₂, hq₂⟩ := h₁.disable _ hq₁
  obtain ⟨t₃, run₃, h₃⟩ := h₂.goesOn hq₂ (by decide)
  obtain ⟨t₄, run₄, h₄⟩ := Midway.goesOn (n := 5) h₃ (h₃.quiet (by decide)) (by decide)
  obtain ⟨t₅, run₅, h₅, hq₅⟩ := h₄.engSwrstDone
  obtain ⟨t₆, run₆, h₆⟩ := h₅.goesOn hq₅ (by decide)
  obtain ⟨t₇, step₇, _, h₇⟩ := Midway.mainline (n := 7) h₆ (h₆.quiet (by decide)) (by decide)
  rw [State.configNext, if_neg (by decide), if_pos rfl, h₆.cReg] at h₇
  obtain ⟨t₈, run₈, h₈⟩ := h₇.claim
  obtain ⟨t₉, run₉, h₉⟩ := Midway.straight (n := 11) (ms := .engSyncCtrlb :: _) 6 h₈ (by
    intro i hi hlt
    interval_cases i <;> decide)
  obtain ⟨t₁₀, run₁₀, h₁₀, hq₁₀⟩ := Midway.engSyncCtrlb h₉
  obtain ⟨t₁₁, run₁₁, h₁₁⟩ := h₁₀.goesOn hq₁₀ (by decide)
  obtain ⟨t₁₂, run₁₂, h₁₂⟩ := Midway.straight (n := 18) (ms := .engSyncEnable :: _) 3 h₁₁ (by
    intro i hi hlt
    interval_cases i <;> decide)
  obtain ⟨t₁₃, run₁₃, h₁₃, hq₁₃⟩ := Midway.engSyncEnable h₁₂ (.inr rfl)
  obtain ⟨t₁₄, run₁₄, h₁₄⟩ := h₁₃.goesOn hq₁₃ (by decide)
  obtain ⟨t₁₅, run₁₅, hpost⟩ := Midway.answers h₁₄
  have toReset := ((run₃.append run₄).append run₅).append (run₆.append (.single .mainline step₇))
  have toSync := (run₉.append run₁₀).append run₁₁
  have toEnd := (run₁₂.append run₁₃).append (run₁₄.append run₁₅)
  exact ⟨t₁₅, (((((run₀.append run₁).append run₂).append toReset).append run₈).append toSync).append toEnd, hpost⟩

end

/-- Settles O25: the steps and synchronisations of the schedule in their order, from one known step to the next. -/
theorem configRunCompletes : Obligations.ConfigRunCompletes := by
  unfold Obligations.ConfigRunCompletes
  exact fun s c r ws ms hf hinv hidle hw hsched => config_runs hf hinv hidle hw hsched

end Sys2Proof.Machine
end
